-- ==== Sys2Proof/Word.lean ====
section
/-! DEFINITION. The word types of the capture block (spec 00_scope.md R9: every value is unsigned). -/

namespace Sys2Proof

/-- An unsigned 8-bit value (R9). -/
abbrev Byte := BitVec 8

/-- A control-bus register address. `P_ADDR_W` is 8 or 16 (R6); an 8-bit address is held zero-extended. -/
abbrev CbAddr := BitVec 16

/-- A data-bus register address, 7 bits (R39). -/
abbrev DbAddr := BitVec 7

/-- A length or a byte count of 23 bits (R6, fixed constants). -/
abbrev Count := BitVec 23

end Sys2Proof
end

