-- ==== Sys2Proof/Syntax.lean ====
section
/-! DEFINITION. The instructions: one constructor per row of spec/opcode_table.json (30_encoding.md R70), and the
encoded forms of 30_encoding.md R63 that stand for them. -/

namespace Sys2Proof

/-- The destination of a burst read (40_transport.md R80, 90_conflicts.md C11). -/
inductive BurstDst where
  | buf
  | out
deriving DecidableEq, Repr

/-- The rows of the opcode table: eleven host commands and the illegal space, three table entries, three data-bus
transactions, two control-bus transactions. -/
inductive Instr where
  /-- HOST 0x01 (R114). -/
  | selftest
  /-- HOST 0x02 (R116). -/
  | probe
  /-- HOST 0x03, mode byte (R96). -/
  | configure (m : Byte)
  /-- HOST 0x04 (R100). -/
  | capture
  /-- HOST 0x05 (R125). -/
  | reconstruct
  /-- HOST 0x06 (R131). -/
  | state
  /-- HOST 0x10, control-bus address (R81). -/
  | cread (a : CbAddr)
  /-- HOST 0x11, control-bus address and value (R82). -/
  | cwrite (a : CbAddr) (v : Byte)
  /-- HOST 0x12, address byte, legal up to 0x7F (R83). -/
  | dread (a : Byte)
  /-- HOST 0x13, address byte, legal up to 0x7F, and value (R84). -/
  | dwrite (a : Byte) (v : Byte)
  /-- HOST 0x14, 24-bit count (R85). -/
  | dburst (n : BitVec 24)
  /-- Every other host command: an illegal opcode or a wrong operand count (R71, R128, R129). It keeps its bytes. -/
  | hostIllegal (bytes : List Byte)
  /-- TBL8 write entry (R90). -/
  | wr8 (a : Byte) (v : Byte)
  /-- TBL8 terminator (R91). -/
  | end8
  /-- TBL16 write entry (R92). -/
  | wr16 (a : CbAddr) (v : Byte)
  /-- Data-bus register read (R79). -/
  | dbRead (a : DbAddr)
  /-- Data-bus register write (R78). -/
  | dbWrite (a : DbAddr) (v : Byte)
  /-- Data-bus burst read (R80). -/
  | dbBurst (n : Count) (dst : BurstDst)
  /-- Control-bus register write (R76). -/
  | cbWrite (a : CbAddr) (v : Byte)
  /-- Control-bus register read (R77). -/
  | cbRead (a : CbAddr)
deriving DecidableEq, Repr

/-- One element of a control-bus frame (R67). -/
inductive CbSym where
  | start
  | restart
  | stop
  | ack
  | nack
  /-- A byte the block sends. -/
  | byte (b : Byte)
  /-- A byte the sensor sends. -/
  | received
deriving DecidableEq, Repr

/-- The three kinds of data-bus transaction (R66). The bytes sent do not tell a read from a burst: the block's own
choice of kind does. The destination of a burst is the block's and is not on the wire. -/
inductive DbKind where
  | read
  | write
  | burst (dst : BurstDst)
deriving DecidableEq, Repr

/-- The five formats of R63. -/
inductive Encoded where
  /-- A host command: opcode byte and operand bytes (R68). -/
  | host (bytes : List Byte)
  /-- A TBL8 word (R64). -/
  | tbl8 (w : BitVec 16)
  /-- A TBL16 word (R65). -/
  | tbl16 (w : BitVec 24)
  /-- A data-bus transaction: the bytes sent and how many bytes are clocked in (R66). -/
  | db (kind : DbKind) (sent : List Byte) (received : Nat)
  /-- A control-bus transaction (R67). -/
  | cb (wire : List CbSym)
deriving DecidableEq, Repr

end Sys2Proof
end

