-- ==== Sys2Proof/Config.lean ====
section
/-! DEFINITION. What an implementation fixes: the parameter record of 00_scope.md R6, the constants the source states
(R8), the reference record of 95_test_vectors.md, and the free values of the model, which have no body. -/

namespace Sys2Proof

/-- `P_VARIANT` (R6). -/
inductive Variant where
  | sensor8
  | sensor16
deriving DecidableEq, Repr

/-- The name of a table: a mode's table or the probe prelude (10_state.md R19). -/
inductive TableRef where
  | mode (m : Byte)
  | prelude
deriving DecidableEq, Repr

/-- A RegisterTable, in one of the two entry formats (R28, R86). -/
inductive RegisterTable where
  | tbl8 (ws : List (BitVec 16))
  | tbl16 (ws : List (BitVec 24))
deriving DecidableEq, Repr

/-- The parameter record of R6. `P_MODES` is the list of the keys of `tables`, so `P_TABLE` is total on it (R28).
`P_SETTLE(t, i)` holds for the listed pairs. `P_TERM`, `P_WRITE_BIT`, `P_ID_H` and `P_ID_L_SET`, whose values the
source states, are constants below. `csSettle` and `initSettle` have no effect (R75, R94). -/
structure Params where
  variant : Variant
  addrW : Nat
  sccbAddr : BitVec 7
  tables : List (Byte × RegisterTable)
  defaultMode : Byte
  settle : List (TableRef × Nat)
  probePrelude : RegisterTable
  regFifo : Byte
  fifoClear : Byte
  fifoStart : Byte
  regTrig : Byte
  capDone : Byte
  regLen1 : Byte
  regLen2 : Byte
  regLen3 : Byte
  burstCmd : Byte
  regScratch : Byte
  scratchVal : Byte
  idHAddr : CbAddr
  idLAddr : CbAddr
  cap : Nat
  n : Nat
  t : Nat
  continuous : Bool
  raw : Bool
  push : Bool
  hdr0 : Byte
  hdr1 : Byte
  pollLimit : Option Nat
  csSettle : Nat
  initSettle : Nat
deriving DecidableEq, Repr

/-- What the module answers to one transaction (R10): `ok` with the bytes it sends; `err`, with the bytes and the
progress a failed burst leaves, which are unspecified (R80); or no outcome at all. A byte the list does not give is a
free value, `Config.moduleByte`. -/
inductive Answer where
  | ok (bytes : List Byte)
  | err (bytes : List Byte) (drained : Nat)
  | noOutcome
deriving DecidableEq, Repr, Inhabited

/-- The two buffers the host provides (20_memory.md R41, R42). -/
inductive HostBuffer where
  | buf
  | obuf
deriving DecidableEq, Repr

/-- FREE VALUE (log entry 2). The module's answer to draw number `d`, where the state's list of answers has run out. -/
opaque Config.moduleAnswer (d : Nat) : Answer

/-- FREE VALUE (log entry 2). Byte `i` of the module's answer to draw number `d`, where the answer lists no such byte. -/
opaque Config.moduleByte (d i : Nat) : Byte

/-- FREE VALUE (log entry 7). What the host's `k`-th read of byte `i` of a buffer gets while a command runs (R58). -/
opaque Config.raceByte (b : HostBuffer) (d k i : Nat) : Byte

/-- FREE VALUE (log entry 7). What the host's `k`-th read of OUT gets while a command runs (R154). -/
opaque Config.raceOut (d k : Nat) : List Byte

/-- The record REF8 of 95_test_vectors.md section 2. DESIGN CHOICE (log entry 1): the record of `State.reset`. Its values
are the source's, the general-knowledge defaults of R6 and the test values of REF8, but for `csSettle` and `initSettle`,
which REF8 does not give: DESIGN CHOICE 0, with no effect (R75, R94). Nothing is proved from them. -/
def Config.ref8 : Params where
  variant := .sensor8
  addrW := 8
  sccbAddr := 0x30
  tables :=
    [(0x00, .tbl8 [0xFF00, 0xDA00, 0xFFFF]), (0x01, .tbl8 [0xFF00, 0xDA01, 0xFFFF]),
     (0x02, .tbl8 [0xFF01, 0x1280, 0xFFFF]), (0x03, .tbl8 [0xFF00, 0xDA03, 0xFFFF]),
     (0x04, .tbl8 [0xFF01, 0x1280, 0xFF00, 0xDA10, 0xFFFF]), (0x05, .tbl8 [0xFF00, 0xDA05, 0xFFFF]),
     (0x06, .tbl8 [0xFF00, 0xDA06, 0xFFFF]), (0x07, .tbl8 [0xFF00, 0xDA07, 0xFFFF]),
     (0x08, .tbl8 [0xFF00, 0xDA08, 0xFFFF])]
  defaultMode := 0x02
  settle := [(.mode 0x04, 1)]
  probePrelude := .tbl8 [0xFFFF]
  regFifo := 0x04
  fifoClear := 0x01
  fifoStart := 0x02
  regTrig := 0x41
  capDone := 0x08
  regLen1 := 0x42
  regLen2 := 0x43
  regLen3 := 0x44
  burstCmd := 0x3C
  regScratch := 0x00
  scratchVal := 0x55
  idHAddr := 0x0A
  idLAddr := 0x0B
  cap := 64
  n := 4
  t := 2
  continuous := false
  raw := false
  push := false
  hdr0 := 0xAA
  hdr1 := 0x55
  pollLimit := none
  csSettle := 0
  initSettle := 0

end Sys2Proof
end

