-- ==== Sys2Proof/WellFormed.lean ====
section
/-! DEFINITION. Which instructions are well formed under a parameter record. -/

namespace Sys2Proof

/-- A control-bus address fits in `P_ADDR_W` bits (R38, R76). -/
def addrFits (p : Params) (a : CbAddr) : Bool :=
  p.addrW == 16 || (p.addrW == 8 && a.toNat < 256)

/-- The number of operand bytes an opcode fixes; none for an illegal opcode (R68, R71). -/
def hostOperands (addrW : Nat) (op : Byte) : Option Nat :=
  let cbAddrBytes := if addrW = 8 then 1 else 2
  match op.toNat with
  | 0x01 => some 0
  | 0x02 => some 0
  | 0x03 => some 1
  | 0x04 => some 0
  | 0x05 => some 0
  | 0x06 => some 0
  | 0x10 => some cbAddrBytes
  | 0x11 => some (cbAddrBytes + 1)
  | 0x12 => some 1
  | 0x13 => some 2
  | 0x14 => some 3
  | _ => none

/-- The bytes form a legal host command: a known opcode and as many operand bytes as it fixes (R128). -/
def legalCommand (addrW : Nat) : List Byte → Bool
  | [] => false
  | op :: operands => hostOperands addrW op == some operands.length

/-- Well-formedness of an instruction under a record:
control-bus addresses fit; `hostIllegal` holds bytes that are no legal command; a TBL8 entry belongs to a `SENSOR8` block
and is no terminator, a TBL16 entry to a `SENSOR16` block; a burst into BUF fits in BUF (R80). -/
def Instr.wf (p : Params) : Instr → Bool
  | .selftest => true
  | .probe => true
  | .configure _ => true
  | .capture => true
  | .reconstruct => true
  | .state => true
  | .cread a => addrFits p a
  | .cwrite a _ => addrFits p a
  | .dread _ => true
  | .dwrite _ _ => true
  | .dburst _ => true
  | .hostIllegal bytes => !legalCommand p.addrW bytes
  | .wr8 a v => p.variant == .sensor8 && !(a == 0xFF && v == 0xFF)
  | .end8 => p.variant == .sensor8
  | .wr16 _ _ => p.variant == .sensor16
  | .dbRead _ => true
  | .dbWrite _ _ => true
  | .dbBurst n dst => dst == .out || n.toNat ≤ p.cap
  | .cbWrite a _ => addrFits p a
  | .cbRead a => addrFits p a

end Sys2Proof
end

