-- ==== Sys2Proof/Decode.lean ====
section
/-! DEFINITION. The decoder of every format of 30_encoding.md, total, rejecting by name; after it the encoder, from the
same tables; then the words of spec/opcode_table.json. -/

namespace Sys2Proof

/-- Why a form is no instruction. A host command is never rejected: its illegal space is the row HOST_ILLEGAL (R71). -/
inductive DecodeError where
  /-- A data-bus frame whose bytes or clocked count do not have the shape of its kind (R66). -/
  | dataBusFrame
  /-- A control-bus frame that is not one of the two of R67 for `P_SCCB_ADDR` and `P_ADDR_W`. -/
  | controlBusFrame
deriving DecidableEq, Repr

/-- A 16-bit control-bus address from its two bytes, most significant first (R49, R69). -/
def joinAddr (hi lo : Byte) : CbAddr := (hi ++ lo : BitVec 16)

/-- An 8-bit control-bus address, zero-extended. -/
def shortAddr (a : Byte) : CbAddr := a.setWidth 16

/-- The most significant byte of a control-bus address. -/
def addrHi (a : CbAddr) : Byte := (a >>> 8).setWidth 8

/-- The least significant byte of a control-bus address. -/
def addrLo (a : CbAddr) : Byte := a.setWidth 8

/-- The 24-bit count of DBURST from its three bytes, most significant first (R69). -/
def joinCount (b0 b1 b2 : Byte) : BitVec 24 := (b0 ++ b1 ++ b2 : BitVec 24)

/-- Decoding a host command (R68, R69, R128): by the opcode byte and the operand count. DEDUCED (log entry 10): no bytes at
all are an illegal command. -/
def decodeHost (addrW : Nat) : List Byte → Instr
  | [] => .hostIllegal []
  | op :: operands =>
    match op.toNat, operands with
    | 0x01, [] => .selftest
    | 0x02, [] => .probe
    | 0x03, [m] => .configure m
    | 0x04, [] => .capture
    | 0x05, [] => .reconstruct
    | 0x06, [] => .state
    | 0x10, [a] => if addrW = 8 then .cread (shortAddr a) else .hostIllegal (op :: operands)
    | 0x10, [h, l] => if addrW = 8 then .hostIllegal (op :: operands) else .cread (joinAddr h l)
    | 0x11, [a, v] => if addrW = 8 then .cwrite (shortAddr a) v else .hostIllegal (op :: operands)
    | 0x11, [h, l, v] => if addrW = 8 then .hostIllegal (op :: operands) else .cwrite (joinAddr h l) v
    | 0x12, [a] => .dread a
    | 0x13, [a, v] => .dwrite a v
    | 0x14, [b0, b1, b2] => .dburst (joinCount b0 b1 b2)
    | _, _ => .hostIllegal (op :: operands)

/-- The address and the value of a TBL8 word, or none for the terminator (R64, R91). -/
def splitTbl8 (w : BitVec 16) : Option (Byte × Byte) :=
  if w = 0xFFFF#16 then none else some ((w >>> 8).setWidth 8, w.setWidth 8)

/-- The address and the value of a TBL16 word (R65): no word is reserved. -/
def splitTbl16 (w : BitVec 24) : CbAddr × Byte := ((w >>> 8).setWidth 16, w.setWidth 8)

/-- Decoding a TBL8 word (R64, R71). -/
def decodeTbl8 (w : BitVec 16) : Instr :=
  match splitTbl8 w with
  | none => .end8
  | some (a, v) => .wr8 a v

/-- Decoding a TBL16 word (R65, R71). -/
def decodeTbl16 (w : BitVec 24) : Instr :=
  .wr16 (splitTbl16 w).1 (splitTbl16 w).2

/-- Decoding a data-bus transaction, by its kind (R66, R70). -/
def decodeDb (burstCmd : Byte) (kind : DbKind) (sent : List Byte) (received : Nat) : Except DecodeError Instr :=
  match kind, sent with
  | .read, [b] =>
    if b.toNat < 0x80 ∧ received = 1 then .ok (.dbRead (b.setWidth 7)) else .error .dataBusFrame
  | .write, [b, v] =>
    if 0x80 ≤ b.toNat ∧ received = 0 then .ok (.dbWrite (b.setWidth 7) v) else .error .dataBusFrame
  | .burst dst, [b] =>
    if b = burstCmd ∧ received < 2 ^ 23 then .ok (.dbBurst (BitVec.ofNat 23 received) dst)
    else .error .dataBusFrame
  | _, _ => .error .dataBusFrame

/-- The first byte of a control-bus frame: the device address and the write indicator 0 (R67). -/
def cbWriteByte (sccb : BitVec 7) : Byte := (sccb ++ (0#1) : BitVec 8)

/-- The byte after the repeated START: the device address and the read indicator 1 (R67). -/
def cbReadByte (sccb : BitVec 7) : Byte := (sccb ++ (1#1) : BitVec 8)

/-- Decoding a control-bus transaction (R67). PRESUMED (log entry 12): the framing is the spec's general-knowledge one
(93 G5, G6). -/
def decodeCb (addrW : Nat) (sccb : BitVec 7) (wire : List CbSym) : Except DecodeError Instr :=
  match wire with
  | [.start, .byte d, .ack, .byte a, .ack, .byte v, .ack, .stop] =>
    if addrW = 8 ∧ d = cbWriteByte sccb then .ok (.cbWrite (shortAddr a) v) else .error .controlBusFrame
  | [.start, .byte d, .ack, .byte h, .ack, .byte l, .ack, .byte v, .ack, .stop] =>
    if addrW = 16 ∧ d = cbWriteByte sccb then .ok (.cbWrite (joinAddr h l) v) else .error .controlBusFrame
  | [.start, .byte d, .ack, .byte a, .ack, .restart, .byte r, .ack, .received, .nack, .stop] =>
    if addrW = 8 ∧ d = cbWriteByte sccb ∧ r = cbReadByte sccb then .ok (.cbRead (shortAddr a))
    else .error .controlBusFrame
  | [.start, .byte d, .ack, .byte h, .ack, .byte l, .ack, .restart, .byte r, .ack, .received, .nack, .stop] =>
    if addrW = 16 ∧ d = cbWriteByte sccb ∧ r = cbReadByte sccb then .ok (.cbRead (joinAddr h l))
    else .error .controlBusFrame
  | _ => .error .controlBusFrame

/-- Decoding any form (R70). -/
def decode (p : Params) : Encoded → Except DecodeError Instr
  | .host bytes => .ok (decodeHost p.addrW bytes)
  | .tbl8 w => .ok (decodeTbl8 w)
  | .tbl16 w => .ok (decodeTbl16 w)
  | .db kind sent received => decodeDb p.burstCmd kind sent received
  | .cb wire => decodeCb p.addrW p.sccbAddr wire

/-- The address bytes of a control-bus address: one byte, or two with the most significant first (R49, R68). -/
def addrBytes (addrW : Nat) (a : CbAddr) : List Byte :=
  if addrW = 8 then [addrLo a] else [addrHi a, addrLo a]

/-- The address part of a control-bus frame: each address byte and its ACK (R67). -/
def addrWire (addrW : Nat) (a : CbAddr) : List CbSym :=
  if addrW = 8 then [.byte (addrLo a), .ack] else [.byte (addrHi a), .ack, .byte (addrLo a), .ack]

/-- Encoding an instruction, from the tables of R64 to R68. -/
def encode (p : Params) : Instr → Encoded
  | .selftest => .host [0x01]
  | .probe => .host [0x02]
  | .configure m => .host [0x03, m]
  | .capture => .host [0x04]
  | .reconstruct => .host [0x05]
  | .state => .host [0x06]
  | .cread a => .host (0x10 :: addrBytes p.addrW a)
  | .cwrite a v => .host (0x11 :: (addrBytes p.addrW a ++ [v]))
  | .dread a => .host [0x12, a]
  | .dwrite a v => .host [0x13, a, v]
  | .dburst n => .host [0x14, (n >>> 16).setWidth 8, (n >>> 8).setWidth 8, n.setWidth 8]
  | .hostIllegal bytes => .host bytes
  | .wr8 a v => .tbl8 (a ++ v : BitVec 16)
  | .end8 => .tbl8 0xFFFF
  | .wr16 a v => .tbl16 (a ++ v : BitVec 24)
  | .dbRead a => .db .read [a.setWidth 8] 1
  | .dbWrite a v => .db .write [a.setWidth 8 ||| 0x80, v] 0
  | .dbBurst n dst => .db (.burst dst) [p.burstCmd] n.toNat
  | .cbWrite a v =>
    .cb ([.start, .byte (cbWriteByte p.sccbAddr), .ack] ++ addrWire p.addrW a ++ [.byte v, .ack, .stop])
  | .cbRead a =>
    .cb ([.start, .byte (cbWriteByte p.sccbAddr), .ack] ++ addrWire p.addrW a
      ++ [.restart, .byte (cbReadByte p.sccbAddr), .ack, .received, .nack, .stop])

/-- The entries of a table in table order: `some (a, v)` a write, `none` a terminator (R64, R65). -/
def RegisterTable.entries : RegisterTable → List (Option (CbAddr × Byte))
  | .tbl8 ws => ws.map fun w => (splitTbl8 w).map fun e => (shortAddr e.1, e.2)
  | .tbl16 ws => ws.map fun w => some (splitTbl16 w)

/-- The form stored at an index of a table. -/
def RegisterTable.formAt (t : RegisterTable) (i : Nat) : Option Encoded :=
  match t with
  | .tbl8 ws => (ws[i]?).map .tbl8
  | .tbl16 ws => (ws[i]?).map .tbl16

/-- `k` bytes of a number, the least significant first: the table's numbering of an instruction's bits. -/
def lowBytes : Nat → Nat → List Byte
  | 0, _ => []
  | k + 1, w => BitVec.ofNat 8 w :: lowBytes k (w / 256)

/-- The form that a word of spec/opcode_table.json stands for. The table's formats share numbers, so the width tells them
apart (DESIGN CHOICE, log entry 8): a word whose first byte is a legal HOST opcode and that is no wider than that command
is the command, its missing operand bytes 0; of the others, a word of at most 8 bits is a data-bus frame (bit 7 the write
indicator, R66), one of at most 16 bits a TBL8 word, a wider one a TBL16 word. -/
def tableForm (addrW nbits w : Nat) : Encoded :=
  let other : Encoded :=
    if nbits ≤ 8 then
      if w % 256 < 0x80 then .db .read (lowBytes 1 w) 1 else .db .write (lowBytes 2 w) 0
    else if nbits ≤ 16 then .tbl8 (BitVec.ofNat 16 w)
    else .tbl16 (BitVec.ofNat 24 w)
  match hostOperands addrW (BitVec.ofNat 8 w) with
  | some k => if nbits ≤ 8 * (k + 1) then .host (lowBytes (k + 1) w) else other
  | none => other

/-- The instruction the decoder reads from a word numbered as spec/opcode_table.json numbers it, with `P_ADDR_W` of the
reset record. -/
def decodeTableWord (nbits w : Nat) : Option Instr :=
  match decode Config.ref8 (tableForm Config.ref8.addrW nbits w) with
  | .ok i => some i
  | .error _ => none

end Sys2Proof
end

