-- ==== Sys2Proof/Machine/State.lean ====
section
/-! DEFINITION. The state of the block (10_state.md, 20_memory.md) as plain data, and the state after reset (R150). -/

namespace Sys2Proof.Machine

/-- The capture state (R16). -/
inductive Cfsm where
  | idle
  | cleared
  | capturing
  | done
  | draining
deriving DecidableEq, Repr

/-- The sequencer state (R17). -/
inductive SeqState where
  | idle
  | run
  | settle
deriving DecidableEq, Repr

/-- A member of FAULT (R15): `BUSY_VIOLATION` is the only one (R138). -/
inductive FaultReason where
  | busyViolation
deriving DecidableEq, Repr

/-- The two settle waits (R75, R94). -/
inductive WaitKind where
  | csSettle
  | initSettle
deriving DecidableEq, Repr

/-- A transaction and its arguments, as an `Err` event names it (R44, R74). -/
inductive Transaction where
  | cbWr (a : CbAddr) (v : Byte)
  | cbRd (a : CbAddr)
  | dbWr (a : DbAddr) (v : Byte)
  | dbRd (a : DbAddr)
  | dbBurst (n : Count)
deriving DecidableEq, Repr

/-- The events of LOG (R44). -/
inductive Event where
  | cbWr (a : CbAddr) (v : Byte)
  | cbRd (a : CbAddr) (v : Byte)
  | dbWr (a : DbAddr) (v : Byte)
  | dbRd (a : DbAddr) (v : Byte)
  | dbBurst (n : Count) (bytes : List Byte)
  | err (x : Transaction)
  | wait (k : WaitKind)
  | out (bytes : List Byte)
deriving DecidableEq, Repr

/-- What the last transaction or playback returned to the running command (R10, R11, R89). `never`: it has no outcome, or
the block halted in it; the command goes no further. -/
inductive Reply where
  | none
  | ok (v : Byte)
  | err
  | never
deriving DecidableEq, Repr

/-- What the host will do next (45_host_interface.md R126, R133). `command bytes early` hands over a command: when `early`
is `none` the host waits for BUSY = 0, as it must; `some k` is a host that breaks that duty and issues the command, if
one is still running, after `k` more turns of the running command. It has a turn at its acceptance and before each of its
actions: a bus transaction, the push header, the end of a settle wait, the end of a table, reconstruction, the response.
`store` is a write of one byte to a buffer, which the host makes only while BUSY = 0 (D46). -/
inductive HostMove where
  | command (bytes : List Byte) (early : Option Nat)
  | store (b : HostBuffer) (i : Nat) (v : Byte)
deriving DecidableEq, Repr

/-- A byte memory: its listed bytes by rising index, none of them equal to what an unlisted byte reads as. -/
abbrev Memory := List Host.Cell

/-- DESIGN CHOICE (log entry 4), unsafe: what a byte of BUF or OBUF that nothing has written reads as. -/
def Memory.unlisted : Byte := 0

/-- Why the block stops. -/
inductive Fault where
  /-- Raised by every step of a block whose FAULT is not empty (R126, R127, R138). Safe: the spec gives no step. -/
  | busyViolation
  /-- Raised by an access to an index outside BUF or OBUF (R51), which no rule makes on a well-formed record: by a burst
  into BUF longer than P_CAP, by reconstruction on an ill-formed record, by a host store outside its buffer. Safe. -/
  | outOfRange
  /-- Raised by playback of a table that is not there, lacks its end or is too long (R86), which no well-formed record
  holds, and by a SEQ_PC past the table's end. Safe: the spec gives no playback. -/
  | tableOverrun
deriving DecidableEq, Repr

/-- Why a step gives no meaning. -/
inductive Refusal where
  /-- Raised by an arm of `exec` whose instruction has no meaning yet. Safe. -/
  | notModelled (mnemonic : String)
  /-- Raised by every step on a parameter record that breaks R7: there is no such block (R150). Safe. -/
  | illFormedRecord
  /-- Raised by a step whose waiting bus frame is no transaction, which no run reaches: the block builds its own frames.
  Safe. -/
  | undecodableFrame
deriving DecidableEq, Repr

/-- The state of the block. The fields down to `log` are the spec's registers and memories; `params` is its configuration,
which no step changes (R6, R12; log entry 1); the last five are the model's own (log entries 2, 3 and 6). -/
@[ext]
structure State where
  /-- The parameter record (R6). -/
  params : Params
  /-- BUSY (R14). -/
  busy : Bool
  /-- FAULT (R15). -/
  fault : List FaultReason
  /-- CFSM (R16). -/
  cfsm : Cfsm
  /-- SEQ_STATE (R17). -/
  seqState : SeqState
  /-- SEQ_PC (R18). -/
  seqPc : BitVec 16
  /-- SEQ_TBL (R19). -/
  seqTbl : TableRef
  /-- MODE (R20). -/
  mode : Byte
  /-- LEN (R21). -/
  len : Count
  /-- LEN_VALID (R21). -/
  lenValid : Bool
  /-- DRAIN_IDX (R22). -/
  drainIdx : Count
  /-- POLL_CNT (R23). -/
  pollCnt : Nat
  /-- SELFTEST_OK (R24). -/
  selftestOk : Bool
  /-- PROBE_OK (R24). -/
  probeOk : Bool
  /-- CFG_VALID (R24). -/
  cfgValid : Bool
  /-- STATUS (R25). -/
  status : Byte
  /-- RESULT_LEN (R25). -/
  resultLen : Count
  /-- RESULT_DATA (R25). -/
  resultData : BitVec 32
  /-- CS_N, the level of the chip-select line: true is 1, deselected (R26). -/
  csN : Bool
  /-- BUF (R41). -/
  buf : Memory
  /-- OBUF (R42). -/
  obuf : Memory
  /-- OUT (R43). -/
  out : List Byte
  /-- LOG (R44). -/
  log : List Event
  /-- The host's coming moves. -/
  host : List HostMove
  /-- The module's coming answers. -/
  answers : List Answer
  /-- The number of answers drawn so far: the index of the free values. -/
  draws : Nat
  /-- What the last transaction or playback returned. -/
  reply : Reply
  /-- The frame that waits in the transport unit: the next poll of a capture that polls (R104). -/
  bus : Option Encoded
deriving DecidableEq, Repr

/-- Reset with a parameter record and the contents the host gave its two buffers (R150, R41, R42). LEN and SEQ_TBL, for
which the spec gives no value, take the values of log entry 5. -/
def State.resetWith (p : Params) (buf obuf : Memory) : State where
  params := p
  busy := false
  fault := []
  cfsm := .idle
  seqState := .idle
  seqPc := 0
  seqTbl := .prelude
  mode := 0xFF
  len := 0
  lenValid := false
  drainIdx := 0
  pollCnt := 0
  selftestOk := false
  probeOk := false
  cfgValid := false
  status := 0xFF
  resultLen := 0
  resultData := 0
  csN := true
  buf := buf
  obuf := obuf
  out := []
  log := []
  host := []
  answers := []
  draws := 0
  reply := .none
  bus := none

/-- The machine right after reset: the reference record, both buffers with nothing listed (log entries 1 and 4). -/
def State.reset : State := State.resetWith Config.ref8 [] []

end Sys2Proof.Machine
end

