-- ==== Sys2Proof/Machine/Ops.lean ====
section
/-! DEFINITION. The named operations over memory, registers and the log; the host's turn; one bus transaction; accepting a
command; ending it, and taking a status (the block's exceptions, 60_exceptions.md R136), as one shared operation. -/

namespace Sys2Proof.Machine

/-! ## Byte memories (R41, R42, R51) -/

/-- The canonical form: indices strictly rising, no entry equal to what an unlisted byte reads as. -/
def Memory.wf (m : Memory) : Bool :=
  decide (m.Pairwise fun x y => x.1 < y.1) && m.all fun c => c.2 != Memory.unlisted

/-- `MemRead(S:i, 1)` (R10). -/
def Memory.read : Memory → Nat → Byte
  | [], _ => Memory.unlisted
  | (j, w) :: m, i => if j = i then w else Memory.read m i

/-- `MemWrite(S:i, 1, v)` (R10). -/
def Memory.write : Memory → Nat → Byte → Memory
  | [], i, v => if v = Memory.unlisted then [] else [(i, v)]
  | (j, w) :: m, i, v =>
    if i < j then (if v = Memory.unlisted then (j, w) :: m else (i, v) :: (j, w) :: m)
    else if i = j then (if v = Memory.unlisted then m else (i, v) :: m)
    else (j, w) :: Memory.write m i v

/-- Bytes written at rising indices from `i`, in order (R47). -/
def Memory.writeBytes : Memory → Nat → List Byte → Memory
  | m, _, [] => m
  | m, i, v :: vs => Memory.writeBytes (Memory.write m i v) (i + 1) vs

/-- Every listed index lies below a size. -/
def Memory.within (m : Memory) (size : Nat) : Bool := m.all fun c => decide (c.1 < size)

/-! ## The log (R44) -/

/-- Appending events to LOG, in order. -/
def State.emit (s : State) (events : List Event) : State := { s with log := s.log ++ events }

/-- `OutWrite(bs)`: appends to OUT and adds one event (R10, R44). DEDUCED (log entry 11): also when it appends no bytes. -/
def State.outWrite (s : State) (bytes : List Byte) : State :=
  { s with out := s.out ++ bytes, log := s.log ++ [.out bytes] }

/-- What a transaction or a playback returns (R10, R89). -/
def State.returns (s : State) (r : Reply) : State := { s with reply := r }

/-! ## The module's answers (R10, R36, R74) -/

/-- The bytes of an answer. -/
def bytesOf : Answer → List Byte
  | .ok bytes => bytes
  | .err bytes _ => bytes
  | .noOutcome => []

/-- The module's `k`-th coming answer: from the state's list, and past its end a free value. -/
def State.answer (s : State) (k : Nat) : Answer :=
  (s.answers[k]?).getD (Config.moduleAnswer (s.draws + k))

/-- Byte `i` of the `k`-th coming answer: the listed byte, and past the list a free value. -/
def State.answerByte (s : State) (k i : Nat) : Byte :=
  ((bytesOf (s.answer k))[i]?).getD (Config.moduleByte (s.draws + k) i)

/-- The first `n` bytes of the `k`-th coming answer. -/
def State.answerBytes (s : State) (k n : Nat) : List Byte := (List.range n).map (s.answerByte k)

/-- The state after one answer has been drawn. -/
def State.drawn (s : State) : State := { s with answers := s.answers.tail, draws := s.draws + 1 }

/-! ## The host's turn (R126, R127) -/

/-- BUSY_VIOLATION (R127, R138): recorded, and the running command goes no further. FAULT is a set. -/
def State.busyViolation (s : State) : State :=
  { s with fault := if s.fault.contains .busyViolation then s.fault else s.fault ++ [.busyViolation], reply := .never }

/-- The host's turn while a command runs, at its acceptance and before each of its actions: a host that breaks its duty
issues its command when its count has run out (R127), and otherwise counts down. The moments of a too early command are the
model's choice (log entry 6). -/
def State.hostTurn (s : State) : State :=
  match s.busy, s.host with
  | true, .command _ (some 0) :: rest => { s with host := rest }.busyViolation
  | true, .command bytes (some (k + 1)) :: rest => { s with host := .command bytes (some k) :: rest }
  | _, _ => s

/-- One action of a running command: the host's turn, then the action. A faulted block acts no further, mid-command (R15,
R126, R127). -/
def inTurn (action : State → State) (s : State) : State :=
  let h := s.hostTurn
  if h.fault = [] then action h else h.returns .never

/-! ## One bus transaction (R10, R53, R74) -/

/-- One transaction of either bus: the host's turn; then `start` (the framing before the answer); then the module's
answer, which decides between the effects of `Ok`, the effects of `Err`, and no outcome, in which the command is stuck
(R11). `ok` and `err` get the state in which the answer was drawn, for its bytes, and work on the state after it.
DEDUCED (log entry 14): with no outcome chip select stays low. -/
def transaction (start : State → State) (ok err : State → State → State) : State → State :=
  inTurn fun h =>
    let b := start h
    match b.answer 0 with
    | .ok _ => ok b b.drawn
    | .err _ _ => (err b b.drawn).returns .err
    | .noOutcome => b.drawn.returns .never

/-- CS_N falls, and the settle wait follows (R66, R75). DESIGN CHOICE (log entry 13): its event is kept in LOG. -/
def State.select (s : State) : State := { s with csN := false, log := s.log ++ [.wait .csSettle] }

/-- CS_N rises, and the settle wait follows (R66, R75); it rises after `Err` too (R26, R78, D21). -/
def State.deselect (s : State) : State := { s with csN := true, log := s.log ++ [.wait .csSettle] }

/-- `CbWrite(a, v)` (R76). -/
def cbWrite (a : CbAddr) (v : Byte) (s : State) : State :=
  transaction (fun b => b)
    (fun _ d => (d.emit [.cbWr a v]).returns (.ok 0))
    (fun _ d => d.emit [.err (.cbWr a v)]) s

/-- `CbRead(a)` (R77). -/
def cbRead (a : CbAddr) (s : State) : State :=
  transaction (fun b => b)
    (fun b d => (d.emit [.cbRd a (b.answerByte 0 0)]).returns (.ok (b.answerByte 0 0)))
    (fun _ d => d.emit [.err (.cbRd a)]) s

/-- `DbWrite(a, v)` (R78). -/
def dbWrite (a : DbAddr) (v : Byte) (s : State) : State :=
  transaction State.select
    (fun _ d => (d.deselect.emit [.dbWr a v]).returns (.ok 0))
    (fun _ d => d.deselect.emit [.err (.dbWr a v)]) s

/-- `DbRead(a)` (R79). -/
def dbRead (a : DbAddr) (s : State) : State :=
  transaction State.select
    (fun b d => (d.deselect.emit [.dbRd a (b.answerByte 0 0)]).returns (.ok (b.answerByte 0 0)))
    (fun _ d => d.deselect.emit [.err (.dbRd a)]) s

/-- The bytes of a burst arrive: at BUF from index 0, or at the end of OUT (R80, R47). -/
def State.deliver (s : State) (dst : BurstDst) (bytes : List Byte) : State :=
  match dst with
  | .buf => { s with buf := s.buf.writeBytes 0 bytes }
  | .out => s.outWrite bytes

/-- What a failed burst of `n` bytes leaves at its destination: all `n` bytes of BUF unspecified, or an unspecified list
of at most `n` bytes on OUT (R80, D20). -/
def State.burstDebris (b : State) (n : Nat) (dst : BurstDst) : List Byte :=
  match dst with
  | .buf => b.answerBytes 0 n
  | .out => (bytesOf (b.answer 0)).take n

/-- The progress a failed burst of `n` bytes leaves in DRAIN_IDX: unspecified, at most `n` (R80). -/
def State.burstProgress (b : State) (n : Count) : Count :=
  match b.answer 0 with
  | .err _ drained => BitVec.ofNat 23 (min drained n.toNat)
  | _ => n

/-- `DbBurst(n, dst)` (R80). The caller has checked that `n` fits (R85, R108). -/
def dbBurst (n : Count) (dst : BurstDst) (s : State) : State :=
  transaction (fun b => { b.select with drainIdx := 0 })
    (fun b d =>
      let bytes := b.answerBytes 0 n.toNat
      ((({ d.deliver dst bytes with drainIdx := n } : State).deselect).emit [.dbBurst n bytes]).returns (.ok 0))
    (fun b d =>
      (({ d.deliver dst (b.burstDebris n.toNat dst) with drainIdx := b.burstProgress n } : State).deselect).emit
        [.err (.dbBurst n)]) s

/-- `r <- P(...) else …` (R11): what follows a transaction or a playback. Nothing follows one without an outcome: the
command is stuck. -/
def onReply (s : State) (err : State → State) (ok : Byte → State → State) : State :=
  match s.reply with
  | .ok v => ok v s
  | .err => err s
  | .never => s
  | .none => s

/-! ## Accepting and ending a command (R126, R130, R136) -/

/-- The status codes (R135). -/
def okCode : Byte := 0
def busError : Byte := 1
def probeFail : Byte := 2
def configError : Byte := 3
def captureStall : Byte := 4
def capacityError : Byte := 5
def notReady : Byte := 6
def frameSizeError : Byte := 7
def illegalCommand : Byte := 8
def badArgument : Byte := 9

/-- The response record, and BUSY falls (R130, R136). -/
def State.setResponse (s : State) (code : Byte) (len : Count) (data : BitVec 32) : State :=
  { s with status := code, resultLen := len, resultData := data, busy := false }

/-- The response as an action of the running command: one issued before BUSY falls leaves no response (R127). -/
def State.respond (s : State) (code : Byte) (len : Count) (data : BitVec 32) : State :=
  inTurn (fun h => h.setResponse code len data) s

/-- `finish(OK, len, data)` (R10, R130): the normal end. -/
def finish (len : Count) (data : BitVec 32) (s : State) : State := s.respond okCode len data

/-- `raise Status(code, data)` (R136): taking a status, after the cleanup of the rule that raises it. It saves STATUS,
RESULT_LEN = 0 and RESULT_DATA and nothing else, and control goes to the idle state (R140). There is no return from it:
the host reads the response and issues its next command (R141). -/
def raise (code : Byte) (data : BitVec 32) (s : State) : State := s.respond code 0 data

/-- BUSY rises and the command's first turn begins (R126). -/
def State.begin (s : State) : State := { s with busy := true, reply := .none }

/-- `accept(cmd)` and then the command (R126, R127): a faulted block takes nothing, a busy one records BUSY_VIOLATION. -/
def accept (command : State → Host.Outcome State Fault Refusal) (s : State) : Host.Outcome State Fault Refusal :=
  if s.fault = [] then
    if s.busy then .next s.busyViolation
    else
      let b := s.begin.hostTurn
      if b.fault = [] then command b else .next b
  else .fault .busyViolation

end Sys2Proof.Machine
end

