-- ==== Sys2Proof/Machine/Operands.lean ====
section
/-! DEFINITION. The operand forms: data-bus addresses, the range checks of the raw commands, mode resolution, the tables,
the reconstruction geometry, and the well-formedness of a parameter record (R7, R86). -/

namespace Sys2Proof.Machine

/-! ## Operands of the raw commands (R69) -/

/-- The host's address byte is no data-bus address: its bit 7 is 1 (R69, R83, R84). -/
def badDbAddr (a : Byte) : Bool := decide (0x7F < a.toNat)

/-- The data-bus address of an address byte of at most 0x7F. -/
def dbAddr (a : Byte) : DbAddr := a.setWidth 7

/-- The DBURST count is out of range (R69, R85). -/
def badBurst (p : Params) (n : BitVec 24) : Bool := decide (2 ^ 23 ≤ n.toNat ∨ p.cap < n.toNat)

/-- A byte as a data word: `zext_32` (R10). -/
def byteData (v : Byte) : BitVec 32 := v.setWidth 32

/-! ## Modes and tables (R28, R87) -/

/-- `P_MODES`. -/
def modes (p : Params) : List Byte := p.tables.map Prod.fst

/-- `resolve(m)` (R87). -/
def resolve (p : Params) (m : Byte) : Byte := if m ∈ modes p then m else p.defaultMode

/-- The table a name stands for (R19, R28). -/
def tableOf (p : Params) : TableRef → Option RegisterTable
  | .mode m => p.tables.lookup m
  | .prelude => some p.probePrelude

/-- The number of write entries of a table before its end (R86). -/
def writeCount (t : RegisterTable) : Nat := (t.entries.takeWhile Option.isSome).length

/-- Playback of the table reaches an end, with an index of 16 bits (R86). -/
def playable (t : RegisterTable) : Bool :=
  decide (writeCount t ≤ 65535) &&
    match t with
    | .tbl8 ws => ws.contains 0xFFFF
    | .tbl16 _ => true

/-- `P_SETTLE(t, i)` (R6, R94). -/
def settleAfter (p : Params) (t : TableRef) (i : Nat) : Bool := p.settle.contains (t, i)

/-! ## Reconstruction geometry (R117, R121) -/

/-- P = N/2, the side of the plane (R117). -/
def planeSide (p : Params) : Nat := p.n / 2

/-- o = (P - T)/2, the crop offset (R117). -/
def cropOffset (p : Params) : Nat := (planeSide p - p.t) / 2

/-- The BUF index that pixel (r, c) of the crop copies (R121). -/
def sourceIndex (p : Params) (r c : Nat) : Nat :=
  let o := cropOffset p
  (r + o) * p.n + 2 * (c + o) + (r + o + 1) % 2

/-- Every index reconstruction reads lies in BUF (R51, R122): the largest row and column stay below P_CAP. -/
def reconstructInRange (p : Params) : Bool :=
  p.t == 0 || decide ((p.t - 1 + cropOffset p) * p.n + 2 * (p.t - 1 + cropOffset p) + 1 < p.cap)

/-! ## Well-formedness of the parameter record (R7, R86) -/

/-- A table has the block's format and an end (R86). -/
def tableWf (v : Variant) (t : RegisterTable) : Bool :=
  playable t &&
    match v, t with
    | .sensor8, .tbl8 _ => true
    | .sensor16, .tbl16 _ => true
    | _, _ => false

/-- A settle mark names a write entry (R86). -/
def settleMarkWf (p : Params) (mark : TableRef × Nat) : Bool :=
  match tableOf p mark.1 with
  | some t => decide (mark.2 < writeCount t)
  | none => false

/-- The addresses of the bridge's register map are data-bus addresses (R7, R84). -/
def bridgeMapWf (p : Params) : Bool :=
  [p.regFifo, p.regTrig, p.regLen1, p.regLen2, p.regLen3, p.regScratch].all (fun a => decide (a.toNat ≤ 0x7F))

/-- R7, item by item. DEDUCED (log entry 9): the identity addresses fit in `P_ADDR_W` bits, and no mode code is there
twice. -/
def recordWf (p : Params) : Bool :=
  [ p.addrW == (match p.variant with | .sensor8 => 8 | .sensor16 => 16),
    (modes p).contains p.defaultMode,
    (modes p).all (fun m => m != 0xFF),
    decide (modes p).Nodup,
    p.tables.all (fun e => tableWf p.variant e.2),
    tableWf p.variant p.probePrelude,
    p.settle.all (settleMarkWf p),
    bridgeMapWf p,
    p.capDone != 0,
    decide (p.n % 2 = 0 ∧ 2 ≤ p.n),
    decide (1 ≤ p.t ∧ p.t ≤ p.n / 2 ∧ (p.n / 2 - p.t) % 2 = 0),
    decide (p.t * p.t < 2 ^ 23),
    decide (p.cap < 2 ^ 23),
    !p.raw || decide (p.n * p.n ≤ p.cap),
    !(p.raw && p.push),
    (match p.pollLimit with | some k => decide (1 ≤ k) | none => true),
    addrFits p p.idHAddr,
    addrFits p p.idLAddr ].all id

end Sys2Proof.Machine
end

