-- ==== Sys2Proof/Machine/Flags.lean ====
section
/-! DEFINITION. The flags and the values computed from registers and bytes read: the capture gate, the capture-done bit, the
FIFO length, the probe's pass predicate, the STATE word. -/

namespace Sys2Proof.Machine

/-- The capture gate passes (R101). -/
def State.gateOpen (s : State) : Bool := s.selftestOk && s.probeOk && s.cfgValid

/-- The capture-done bit of a trigger-status value (R30, R104). -/
def captureDone (p : Params) (v : Byte) : Bool := (v &&& p.capDone) != 0

/-- `fifoLength` (R46, R106). -/
def fifoLength (l1 l2 l3 : Byte) : Count :=
  (((l3 &&& 0x7F).setWidth 23 <<< 16) ||| (l2.setWidth 23 <<< 8) ||| l1.setWidth 23) &&& 0x7FFFFF

/-- `P_ID_H` (R6, R8). -/
def idHigh : Byte := 0x26

/-- `P_ID_L_SET` (R6, R8). -/
def idLowSet : List Byte := [0x40, 0x41, 0x42]

/-- `probePass` (R115). -/
def probePass (h l : Byte) : Bool := h == idHigh && idLowSet.contains l

/-- The identity pair as a data word: `h << 8 | l` (R116). -/
def idData (h l : Byte) : BitVec 32 := (h.setWidth 32 <<< 8) ||| l.setWidth 32

/-- The code of CFSM (R16). -/
def Cfsm.code : Cfsm → BitVec 32
  | .idle => 0
  | .cleared => 1
  | .capturing => 2
  | .done => 3
  | .draining => 4

/-- The code of SEQ_STATE (R17). -/
def SeqState.code : SeqState → BitVec 32
  | .idle => 0
  | .run => 1
  | .settle => 2

/-- A flag as a bit. -/
def bit (b : Bool) : BitVec 32 := if b then 1 else 0

/-- The STATE word (R27, R131). -/
def State.word (s : State) : BitVec 32 :=
  s.cfsm.code ||| (s.seqState.code <<< 3) ||| (bit s.selftestOk <<< 5) ||| (bit s.probeOk <<< 6)
    ||| (bit s.cfgValid <<< 7) ||| (s.mode.setWidth 32 <<< 8) ||| (bit s.lenValid <<< 16)

end Sys2Proof.Machine
end

