-- ==== Sys2Proof/Machine/Reconstruct.lean ====
section
/-! DEFINITION. The Bayer deinterleaver and repacker (44_reconstruct.md): the closed forms of its stages, `Reconstruct()`
(R121) and the command RECONSTRUCT (R125). -/

namespace Sys2Proof.Machine

/-- The mosaic in BUF, row-major (R48, R118). -/
def mosaic (s : State) (r c : Nat) : Byte := s.buf.read (r * s.params.n + c)

/-- Deinterleave (R118). -/
def plane (s : State) (r c : Nat) : Byte := mosaic s r (2 * c + (r + 1) % 2)

/-- Centre-crop (R120). -/
def crop (s : State) (r c : Nat) : Byte := plane s (r + cropOffset s.params) (c + cropOffset s.params)

/-- The T*T output pixels in row-major order, each a copy of one BUF byte (R121, R123). -/
def pixels (s : State) : List Byte :=
  (List.range (s.params.t * s.params.t)).map fun k =>
    s.buf.read (sourceIndex s.params (k / s.params.t) (k % s.params.t))

/-- Emit (R121): every OBUF byte 0 to T*T-1 is written once; BUF is only read. -/
def emitPixels (s : State) : State := { s with obuf := s.obuf.writeBytes 0 (pixels s) }

/-- `Reconstruct()` (R121), one action of the running command. -/
def reconstruct : State → State := inTurn emitPixels

/-- The number of output pixels as a result length. -/
def pixelCount (p : Params) : Count := BitVec.ofNat 23 (p.t * p.t)

/-- RECONSTRUCT (R125). An index outside BUF, which only an ill-formed record can produce, faults (R51, R122). -/
def execReconstruct : State → Host.Outcome State Fault Refusal :=
  accept fun s =>
    if s.params.cap < s.params.n * s.params.n then .next (raise badArgument 0 s)
    else if reconstructInRange s.params then .next (finish (pixelCount s.params) 0 (reconstruct s))
    else .fault .outOfRange

end Sys2Proof.Machine
end

