-- ==== Sys2Proof/Machine/Capture.lean ====
section
/-! DEFINITION. The FIFO capture state machine (42_capture_fsm.md) and the command CAPTURE (R100), transition by transition,
the last one first. -/

namespace Sys2Proof.Machine

/-- `abort(code)`: the cleanup of every failure inside CAPTURE (R111). -/
def abort (code : Byte) (s : State) : State := raise code 0 { s with cfsm := .idle, pollCnt := 0 }

/-- The value of a FIFO-control write (R29, R102, R103): the whole register, no read-modify-write. -/
def fifoControl (v : Byte) (s : State) : State := dbWrite (dbAddr s.params.regFifo) v s

/-- The end of CAPTURE: reconstruction for a raw block, and the response (R100, R113). -/
def captureEnd (s : State) : State :=
  if s.params.raw then finish (pixelCount s.params) (s.len.setWidth 32) (reconstruct s)
  else finish s.len 0 s

/-- T5 after the burst: the re-clear of a continuous block (R109). -/
def afterDrain (s : State) : State :=
  if s.params.continuous then
    onReply (fifoControl s.params.fifoClear s) (abort busError) fun _ d => captureEnd { d with cfsm := .cleared }
  else captureEnd { s with cfsm := .idle }

/-- The destination of the drain (R109). -/
def drainDst (p : Params) : BurstDst := if p.push then .out else .buf

/-- The push header, at the start of T5 (R110). -/
def pushHeader (s : State) : State :=
  if s.params.push then inTurn (fun h => h.outWrite [h.params.hdr0, h.params.hdr1]) s else s

/-- T5: DRAINING to IDLE or CLEARED (R109, R110). -/
def drain (s : State) : State :=
  let h := pushHeader s
  onReply (dbBurst h.len (drainDst h.params) h) (abort busError) fun _ => afterDrain

/-- The length checks, then DRAINING (R107, R108). -/
def lengthChecks (s : State) : State :=
  if !s.params.push && decide (s.params.cap < s.len.toNat) then abort capacityError s
  else if s.params.raw && decide (s.len.toNat < s.params.n * s.params.n) then abort frameSizeError s
  else drain { s with cfsm := .draining }

/-- T4: DONE to DRAINING (R107): the three length registers in order, LEN written once all are read. -/
def readLength (s : State) : State :=
  onReply (dbRead (dbAddr s.params.regLen1) s) (abort busError) fun l1 s1 =>
    onReply (dbRead (dbAddr s1.params.regLen2) s1) (abort busError) fun l2 s2 =>
      onReply (dbRead (dbAddr s2.params.regLen3) s2) (abort busError) fun l3 s3 =>
        lengthChecks { s3 with len := fifoLength l1 l2 l3, lenValid := true }

/-- The next poll waits in the transport unit: the command stays in CAPTURING (R104, T3a). -/
def awaitPoll (s : State) : State :=
  { s with bus := some (encode s.params (.dbRead (dbAddr s.params.regTrig))) }

/-- `poll_limit_step()` (R105). -/
def pollLimitStep (s : State) : State :=
  match s.params.pollLimit with
  | none => awaitPoll s
  | some k =>
    if k ≤ s.pollCnt + 1 then abort captureStall { s with pollCnt := s.pollCnt + 1 }
    else awaitPoll { s with pollCnt := s.pollCnt + 1 }

/-- What follows a poll that read `v`: T3b and on, or T3a (R104). -/
def pollRead (v : Byte) (s : State) : State :=
  if captureDone s.params v then readLength { s with cfsm := .done } else pollLimitStep s

/-- A poll has returned (R104). -/
def pollReturned (s : State) : State := onReply s (abort busError) pollRead

/-- T3: one poll of the trigger-status register (R104). -/
def poll (s : State) : State := pollReturned (dbRead (dbAddr s.params.regTrig) s)

/-- T2: CLEARED to CAPTURING (R103). -/
def startCapture (s : State) : State :=
  onReply (fifoControl s.params.fifoStart s) (abort busError) fun _ d =>
    poll { d with cfsm := .capturing, pollCnt := 0 }

/-- T1: IDLE to CLEARED (R102), skipped in CLEARED. -/
def clearFifo (s : State) : State :=
  if s.cfsm = .idle then
    onReply (fifoControl s.params.fifoClear s) (abort busError) fun _ d => startCapture { d with cfsm := .cleared }
  else startCapture s

/-- CAPTURE after acceptance: the gate, then the transitions (R100, R101). -/
def capture (s : State) : State := if s.gateOpen then clearFifo s else raise notReady 0 s

/-- CAPTURE (R100). It runs to its end or to the first poll that reads capture-done clear, whose successors are one step
each (R104; log entry 3). Reconstruction outside BUF, which only an ill-formed record can ask for, faults (R51, R122). -/
def execCapture : State → Host.Outcome State Fault Refusal :=
  accept fun s =>
    if s.params.raw && !reconstructInRange s.params then .fault .outOfRange else .next (capture s)

end Sys2Proof.Machine
end

