-- ==== Sys2Proof/Machine/HostInterface.lean ====
section
/-! DEFINITION. The host command interface (45_host_interface.md): STATE (R131), the illegal space (R129), the host's
writes to its buffers and its reads (R58, R133, R154). -/

namespace Sys2Proof.Machine

/-- STATE (R131). -/
def execState : State → Host.Outcome State Fault Refusal :=
  accept fun s => .next (finish (if s.lenValid then s.len else 0) s.word s)

/-- HOST_ILLEGAL (R129): nothing but the result registers, whatever the bytes. -/
def execHostIllegal (_bytes : List Byte) : State → Host.Outcome State Fault Refusal :=
  accept fun s => .next (raise illegalCommand 0 s)

/-- The size of a host buffer (R37). -/
def bufferSize (p : Params) : HostBuffer → Nat
  | .buf => p.cap
  | .obuf => p.t * p.t

/-- The contents of a host buffer. -/
def State.contents (s : State) : HostBuffer → Memory
  | .buf => s.buf
  | .obuf => s.obuf

/-- The host writes a byte of its own buffer between commands (R133). An index outside the buffer faults (R51). -/
def hostStore (b : HostBuffer) (i : Nat) (v : Byte) (s : State) : Host.Outcome State Fault Refusal :=
  if bufferSize s.params b ≤ i then .fault .outOfRange
  else match b with
    | .buf => .next { s with buf := s.buf.write i v }
    | .obuf => .next { s with obuf := s.obuf.write i v }

/-- What the host's `k`-th read of a buffer byte gets: the byte after the response, any byte while a command runs (R58).
It is an observation: no step depends on it. DESIGN CHOICE (log entry 7): a read at an index outside the buffer, which no
rule makes, gets what an unlisted byte reads as. -/
def hostRead (b : HostBuffer) (k i : Nat) (s : State) : Byte :=
  if s.busy then Config.raceByte b s.draws k i else (s.contents b).read i

/-- What the host's `k`-th read of OUT gets (R58, R154). -/
def hostReadOut (k : Nat) (s : State) : List Byte :=
  if s.busy then Config.raceOut s.draws k else s.out

end Sys2Proof.Machine
end

