-- ==== Sys2Proof/Machine/Checks.lean ====
section
/-! DEFINITION. The startup checks: SELFTEST (R114), and of PROBE (R116) what follows its prelude. -/

namespace Sys2Proof.Machine

/-- A transaction of SELFTEST failed (R114). -/
def selftestBusError (s : State) : State := raise busError 0 { s with selftestOk := false }

/-- SELFTEST's comparison (R114). -/
def selftestCompare (v : Byte) (s : State) : State :=
  if v = s.params.scratchVal then finish 0 (byteData v) { s with selftestOk := true }
  else raise probeFail (byteData v) { s with selftestOk := false }

/-- SELFTEST: one write, one read, the comparison (R114). -/
def selftest (s : State) : State :=
  onReply (dbWrite (dbAddr s.params.regScratch) s.params.scratchVal s) selftestBusError fun _ w =>
    onReply (dbRead (dbAddr w.params.regScratch) w) selftestBusError selftestCompare

/-- SELFTEST (R114). -/
def execSelftest : State → Host.Outcome State Fault Refusal := accept fun s => .next (selftest s)

/-- A prelude write or a read of PROBE failed (R116). -/
def probeBusError (s : State) : State := raise busError 0 { s with probeOk := false }

/-- PROBE's comparison, after both reads (R116). -/
def probeCompare (h l : Byte) (s : State) : State :=
  if probePass h l then finish 0 (idData h l) { s with probeOk := true }
  else raise probeFail (idData h l) { s with probeOk := false }

/-- PROBE after its prelude has returned: both identity registers, the high byte first (R116). -/
def probeIdentity (s : State) : State :=
  onReply s probeBusError fun _ r =>
    onReply (cbRead r.params.idHAddr r) probeBusError fun h r' =>
      onReply (cbRead r'.params.idLAddr r') probeBusError fun l => probeCompare h l

end Sys2Proof.Machine
end

