-- ==== Sys2Proof/Machine/Sequencer.lean ====
section
/-! DEFINITION. The register sequencer (41_sequencer.md): its transitions, its entries WR8, END8 and WR16, one a step, and the
two commands that play a table, CONFIGURE (R96) and PROBE (R116). -/

namespace Sys2Proof.Machine

/-! ## The sequencer's transitions (R88) -/

/-- SEQ_IDLE to SEQ_RUN: a playback starts (R88, R89). -/
def startPlay (t : TableRef) (s : State) : State :=
  { s with seqTbl := t, seqPc := 0, seqState := .run }

/-- SEQ_RUN to SEQ_IDLE with `Ok`: the terminator, or the end of a TBL16 table (R88, R91, R93). SEQ_PC stays. -/
def playEnd : State → State := inTurn fun s => { s with seqState := .idle }.returns (.ok 0)

/-- What follows the CbWrite of a write entry (R88): after `Ok`, SEQ_SETTLE and its wait if the entry is marked, else the
next entry; after `Err`, SEQ_IDLE, SEQ_PC kept (R95); with no outcome, stuck. -/
def afterWrite (s : State) : State :=
  onReply s (fun e => { e with seqState := .idle }) fun _ d =>
    if settleAfter d.params d.seqTbl d.seqPc.toNat then { d.emit [.wait .initSettle] with seqState := .settle }
    else { d with seqPc := d.seqPc + 1 }

/-- A write entry (R90, R92). -/
def seqWrite (a : CbAddr) (v : Byte) (s : State) : State := afterWrite (cbWrite a v s)

/-- SEQ_SETTLE to SEQ_RUN: the wait ends (R88, R94). -/
def settleEnd (s : State) : State :=
  if s.seqState = .settle then inTurn (fun h => { h with seqState := .run, seqPc := h.seqPc + 1 }) s else s

/-- WR8 (R90). -/
def execWr8 (a v : Byte) (s : State) : Host.Outcome State Fault Refusal := .next (seqWrite (shortAddr a) v s)

/-- END8 (R91). -/
def execEnd8 (s : State) : Host.Outcome State Fault Refusal := .next (playEnd s)

/-- WR16 (R92). -/
def execWr16 (a : CbAddr) (v : Byte) (s : State) : Host.Outcome State Fault Refusal := .next (seqWrite a v s)

/-! ## CONFIGURE and PROBE (R96, R116)

Each starts a playback; the sequencer then plays one entry a step (R88, D22), and the step that ends the playback returns to the
command, which goes on from there (Machine/Fetch.lean). -/

/-- A write of CONFIGURE's table failed (R96, R161). -/
def configureError (s : State) : State := raise configError 0 { s with cfgValid := false, mode := 0xFF }

/-- CONFIGURE after its playback has returned (R96). -/
def configureEnd (m : Byte) (s : State) : State :=
  onReply s configureError fun _ d => finish 0 (byteData m) { d with cfgValid := true, mode := m }

/-- Playback has returned to the command that called it: CONFIGURE for a mode's table, PROBE for the prelude. -/
def playReturned (s : State) : State :=
  match s.seqTbl with
  | .mode m => configureEnd m s
  | .prelude => probeIdentity s

/-- CONFIGURE: mode resolution, and the playback starts (R87, R89, R96). -/
def execConfigure (m : Byte) : State → Host.Outcome State Fault Refusal :=
  accept fun s => .next (startPlay (.mode (resolve s.params m)) s)

/-- PROBE: the playback of its prelude starts (R116). -/
def execProbe : State → Host.Outcome State Fault Refusal := accept fun s => .next (startPlay .prelude s)

end Sys2Proof.Machine
end

