-- ==== Sys2Proof/Machine/Transport.lean ====
section
/-! DEFINITION. The transport family: the five bus transactions as instructions (R76 to R80) and the raw-access host
commands (R81 to R85). -/

namespace Sys2Proof.Machine

/-! ## The transactions (R76 to R80) -/

/-- CB_WRITE (R76). -/
def execCbWrite (a : CbAddr) (v : Byte) (s : State) : Host.Outcome State Fault Refusal := .next (cbWrite a v s)

/-- CB_READ (R77). -/
def execCbRead (a : CbAddr) (s : State) : Host.Outcome State Fault Refusal := .next (cbRead a s)

/-- DB_WRITE (R78). -/
def execDbWrite (a : DbAddr) (v : Byte) (s : State) : Host.Outcome State Fault Refusal := .next (dbWrite a v s)

/-- DB_READ (R79). -/
def execDbRead (a : DbAddr) (s : State) : Host.Outcome State Fault Refusal := .next (dbRead a s)

/-- DB_BURST (R80). A burst into BUF must fit: an index outside BUF faults (R51; log entry
15). -/
def execDbBurst (n : Count) (dst : BurstDst) (s : State) : Host.Outcome State Fault Refusal :=
  if dst = .buf ∧ s.params.cap < n.toNat then .fault .outOfRange else .next (dbBurst n dst s)

/-! ## The raw-access commands (R81 to R85) -/

/-- CREAD (R81). -/
def execCread (a : CbAddr) : State → Host.Outcome State Fault Refusal :=
  accept fun s => .next (onReply (cbRead a s) (raise busError 0) fun v => finish 1 (byteData v))

/-- CWRITE (R82). -/
def execCwrite (a : CbAddr) (v : Byte) : State → Host.Outcome State Fault Refusal :=
  accept fun s => .next (onReply (cbWrite a v s) (raise busError 0) fun _ => finish 0 0)

/-- DREAD (R83). -/
def execDread (a : Byte) : State → Host.Outcome State Fault Refusal :=
  accept fun s =>
    .next (if badDbAddr a then raise badArgument 0 s
      else onReply (dbRead (dbAddr a) s) (raise busError 0) fun v => finish 1 (byteData v))

/-- DWRITE (R84). -/
def execDwrite (a : Byte) (v : Byte) : State → Host.Outcome State Fault Refusal :=
  accept fun s =>
    .next (if badDbAddr a then raise badArgument 0 s
      else onReply (dbWrite (dbAddr a) v s) (raise busError 0) fun _ => finish 0 0)

/-- DBURST (R85). -/
def execDburst (n : BitVec 24) : State → Host.Outcome State Fault Refusal :=
  accept fun s =>
    .next (if badBurst s.params n then raise badArgument 0 s
      else onReply (dbBurst (n.setWidth 23) .buf s) (raise busError 0) fun _ => finish (n.setWidth 23) 0)

end Sys2Proof.Machine
end

