-- ==== Sys2Proof/Machine/Dispatch.lean ====
section
/-! DEFINITION. exec: one arm per constructor of Instr, each one direct call of its meaning. -/

namespace Sys2Proof.Machine

def exec (i : Instr) (s : State) : Host.Outcome State Fault Refusal :=
  match i with
  | .selftest => Sys2Proof.Machine.execSelftest s
  | .probe => Sys2Proof.Machine.execProbe s
  | .configure m => Sys2Proof.Machine.execConfigure m s
  | .capture => Sys2Proof.Machine.execCapture s
  | .reconstruct => Sys2Proof.Machine.execReconstruct s
  | .state => Sys2Proof.Machine.execState s
  | .cread a => Sys2Proof.Machine.execCread a s
  | .cwrite a v => Sys2Proof.Machine.execCwrite a v s
  | .dread a => Sys2Proof.Machine.execDread a s
  | .dwrite a v => Sys2Proof.Machine.execDwrite a v s
  | .dburst n => Sys2Proof.Machine.execDburst n s
  | .hostIllegal bytes => Sys2Proof.Machine.execHostIllegal bytes s
  | .wr8 a v => Sys2Proof.Machine.execWr8 a v s
  | .end8 => Sys2Proof.Machine.execEnd8 s
  | .wr16 a v => Sys2Proof.Machine.execWr16 a v s
  | .dbRead a => Sys2Proof.Machine.execDbRead a s
  | .dbWrite a v => Sys2Proof.Machine.execDbWrite a v s
  | .dbBurst n dst => Sys2Proof.Machine.execDbBurst n dst s
  | .cbWrite a v => Sys2Proof.Machine.execCbWrite a v s
  | .cbRead a => Sys2Proof.Machine.execCbRead a s

end Sys2Proof.Machine
end

