-- ==== Sys2Proof/Machine/Fetch.lean ====
section
/-! DEFINITION. Where the next instruction comes from, and what follows it: the frame that waits in the transport unit, the
table entry at SEQ_PC, the host's next command. -/

namespace Sys2Proof.Machine

/-- Who takes the state after an instruction: for a frame the capture that polls (R104), for a table entry the command
whose playback it may have ended (R89); a host command has ended or waits on its own. -/
inductive Source where
  | frame
  | entry
  | host
deriving DecidableEq, Repr

/-- What a step does next: an instruction, in the state it runs in; a step with no instruction; a stop. -/
inductive Fetched where
  | instr (i : Instr) (src : Source) (s : State)
  | internal (s : State)
  | fault (f : Fault)
  | refusal (r : Refusal)
deriving Repr

/-- What follows a frame's transaction: a capture in CAPTURING takes the value its poll read (R104). -/
def afterFrame (s : State) : State := if s.busy && s.cfsm == .capturing then pollReturned s else s

/-- What follows a table entry: when the sequencer is back in SEQ_IDLE, playback has returned to its command (R88, R89). -/
def afterEntry (s : State) : State := if s.busy && s.seqState == .idle then playReturned s else s

/-- What a step adds after an instruction. -/
def resume (src : Source) (s : State) : State :=
  match src with
  | .frame => afterFrame s
  | .entry => afterEntry s
  | .host => s

/-- The frame in the transport unit, taken out of it. -/
def fetchFrame (f : Encoded) (s : State) : Fetched :=
  match decode s.params f with
  | .ok i => .instr i .frame { s with bus := none }
  | .error _ => .refusal .undecodableFrame

/-- The end of a TBL16 table at SEQ_PC = length, which has no encoding (R93). -/
def atTableEnd (t : RegisterTable) (pc : Nat) : Bool :=
  match t with
  | .tbl8 _ => false
  | .tbl16 ws => pc == ws.length

/-- The table entry at SEQ_PC (R18, R28, R89). -/
def fetchEntry (s : State) : Fetched :=
  match tableOf s.params s.seqTbl with
  | none => .fault .tableOverrun
  | some t =>
    if atTableEnd t s.seqPc.toNat then .internal (afterEntry (playEnd s))
    else match t.formAt s.seqPc.toNat with
      | none => .fault .tableOverrun
      | some f =>
        match decode s.params f with
        | .ok i => .instr i .entry s
        | .error _ => .refusal .undecodableFrame

/-- The host's next move while no command runs (R126, R133). With none the block is idle and keeps every register (R149). -/
def fetchHost (s : State) : Fetched :=
  match s.host with
  | [] => .internal s
  | .command bytes _ :: rest => .instr (decodeHost s.params.addrW bytes) .host { s with host := rest }
  | .store b i v :: rest =>
    match hostStore b i v { s with host := rest } with
    | .next t => .internal t
    | .fault f => .fault f
    | .refused r => .refusal r

/-- A command that waits on a transaction without an outcome, or on nothing the block holds: only the host can still act,
by breaking its duty (R112, R127, R132). -/
def stuck (s : State) : Bool := s.busy && (s.reply == .never || (s.bus.isNone && s.seqState == .idle))

/-- What the block does next: an ill-formed record is no block (R7), a faulted block takes no step (R15), a stuck one waits;
otherwise the transport unit, then the sequencer, then the host. -/
def fetch (s : State) : Fetched :=
  if recordWf s.params then
    if s.fault = [] then
      if stuck s then .internal s.hostTurn
      else match s.bus, s.seqState with
        | some f, _ => fetchFrame f s
        | none, .run => fetchEntry s
        | none, .settle => .internal (settleEnd s)
        | none, .idle => fetchHost s
    else .fault .busyViolation
  else .refusal .illFormedRecord

/-- Running what was fetched. -/
def runFetched (f : Fetched) : Host.Outcome State Fault Refusal :=
  match f with
  | .instr i src s =>
    match exec i s with
    | .next t => .next (resume src t)
    | .fault e => .fault e
    | .refused r => .refused r
  | .internal s => .next s
  | .fault e => .fault e
  | .refusal r => .refused r

/-- A table that ends at once, in a variant's format. -/
def emptyTable : Variant → RegisterTable
  | .sensor8 => .tbl8 [0xFFFF]
  | .sensor16 => .tbl16 []

/-- A record for a variant whose prelude is a given table: the record itself but for the prelude and its marks where the
variant is the record's own, else with its modes' tables empty and the identity addresses cut to the variant's width. -/
def recordWithPrelude (p : Params) (v : Variant) (prelude : RegisterTable) : Params :=
  if p.variant = v then
    { p with probePrelude := prelude, settle := p.settle.filter fun mark => mark.1 != .prelude }
  else
    { p with
      variant := v
      addrW := match v with | .sensor8 => 8 | .sensor16 => 16
      tables := (modes p).map fun m => (m, emptyTable v)
      probePrelude := prelude
      settle := []
      idHAddr := p.idHAddr &&& 0xFF
      idLAddr := p.idLAddr &&& 0xFF }

/-- The block between commands, with nothing waiting in it. -/
def State.quiesce (s : State) : State :=
  { s with busy := false, fault := [], bus := none, seqState := .idle, reply := .none }

/-- The prelude `t` under play at its first entry, by a running PROBE (R116). -/
def State.playingPrelude (s : State) (v : Variant) (t : RegisterTable) : State :=
  { startPlay .prelude s.quiesce with params := recordWithPrelude s.params v t, busy := true }

/-- A form put where the next fetch takes it: a host command as the host's next move, a table entry as the first entry of a
prelude under play, a bus frame in the transport unit. -/
def placeForm (f : Encoded) (s : State) : State :=
  match f with
  | .host bytes => { s.quiesce with host := .command bytes none :: s.host }
  | .tbl8 w => s.playingPrelude .sensor8 (.tbl8 [w, 0xFFFF])
  | .tbl16 w => s.playingPrelude .sensor16 (.tbl16 [w])
  | .db kind sent received => { s.quiesce with bus := some (.db kind sent received) }
  | .cb wire => { s.quiesce with bus := some (.cb wire) }

end Sys2Proof.Machine
end

