-- ==== Sys2Proof/Machine/Step.lean ====
section
/-! DEFINITION. One step of the machine, and where an opcode-table word is placed for it. -/

namespace Sys2Proof.Machine

/-- One step: what the block does next (Machine/Fetch.lean). -/
def step (s : State) : Host.Outcome State Fault Refusal := runFetched (fetch s)

/-- `s` with a word of spec/opcode_table.json placed where the next step fetches it, on a well-formed record (log entry 8):
a host command is the host's next move; a table entry opens a prelude that a PROBE plays; a data-bus frame waits in the
transport unit. -/
def State.withFetchWord (s : State) (nbits w : Nat) : State := placeForm (tableForm Config.ref8.addrW nbits w) s

end Sys2Proof.Machine
end

