-- ==== Sys2Proof/Safety.lean ====
section
/-! DEFINITION. The terms claims use: what an agent can see of LOG, the host that keeps its duty, the module's answers, the
events a playback makes, the end of a run, and the invariant of the machine. -/

namespace Sys2Proof.Machine

/-- LOG without the chip-select settle waits, on which no claim may depend (R75). -/
def visible (log : List Event) : List Event := log.filter fun e => e != .wait .csSettle

/-- The visible events of a state. -/
def State.events (s : State) : List Event := visible s.log

/-- The host's next move is no command issued too early: nothing breaks into a running command (R133). -/
def State.quiet (s : State) : Bool :=
  match s.host with
  | .command _ (some _) :: _ => false
  | _ => true

/-- The block takes a command: not faulted, not busy, and the host keeps its duty while it runs (R126). -/
def State.accepting (s : State) : Bool := s.fault.isEmpty && !s.busy && s.quiet

/-- The block may take a transaction or a table entry: not faulted, and the host keeps its duty (R126). -/
def State.clear (s : State) : Bool := s.fault.isEmpty && s.quiet

/-- The module's `k`-th coming answer is `Ok` (R10). -/
def State.saysOk (s : State) (k : Nat) : Bool :=
  match s.answer k with
  | .ok _ => true
  | _ => false

/-- The module's `k`-th coming answer is `Err` (R10). -/
def State.saysErr (s : State) (k : Nat) : Bool :=
  match s.answer k with
  | .err _ _ => true
  | _ => false

/-- The module gives no `k`-th coming answer (R10). -/
def State.saysNothing (s : State) (k : Nat) : Bool :=
  match s.answer k with
  | .noOutcome => true
  | _ => false

/-- The module answers `Ok` to the first `k` coming transactions. -/
def State.allOk (s : State) (k : Nat) : Bool := (List.range k).all s.saysOk

/-- The write entries of a table before its end, in order (R86, R89). -/
def writes (t : RegisterTable) : List (CbAddr × Byte) := (t.entries.takeWhile Option.isSome).filterMap id

/-- The events of the playback of a table when every write answers `Ok` (R97): each write, and the wait of its mark. -/
def playEvents (p : Params) (ref : TableRef) : List (CbAddr × Byte) → Nat → List Event
  | [], _ => []
  | (a, v) :: rest, i =>
    (.cbWr a v :: if settleAfter p ref i then [.wait .initSettle] else []) ++ playEvents p ref rest (i + 1)

/-- The loop of `Play`, over the entries from SEQ_PC on, as the pseudocode of R89 has it: it stops at a terminator, at the end
of the list (R93), at the first write that answers `Err` (R95), and in a write with no outcome. The machine plays one entry
a step; the statement `PlaybackIsEntryByEntry` says that its steps come to this. -/
def playFrom : List (Option (CbAddr × Byte)) → State → State
  | [], s => playEnd s
  | none :: _, s => playEnd s
  | some (a, v) :: rest, s =>
    let w := settleEnd (seqWrite a v s)
    match w.reply with
    | .ok _ => playFrom rest w
    | _ => w

/-- The number of steps that loop takes (R88, log entry 3): one for each write it makes, one more for the settle wait of a
marked one, and one for the end of the table. -/
def playSteps : List (Option (CbAddr × Byte)) → State → Nat
  | [], _ => 1
  | none :: _, _ => 1
  | some (a, v) :: rest, s =>
    let w := seqWrite a v s
    match w.reply with
    | .ok _ => (if w.seqState = .settle then 2 else 1) + playSteps rest (settleEnd w)
    | _ => 1

/-- The state in which a command has started the playback of a table, and played none of it (R88, R126). -/
def State.starts (s : State) (t : TableRef) : State :=
  { s with busy := true, reply := .none, seqTbl := t, seqPc := 0, seqState := .run }

/-- `k` steps end the running command in `t`: BUSY falls at the last of them, and not before (R14, R130). -/
def endsIn (s : State) (k : Nat) (t : State) : Prop :=
  Sys2Proof.core.run k s = .next t ∧ t.busy = false ∧
  ∀ j, j < k → ∃ u, Sys2Proof.core.run j s = .next u ∧ u.busy = true

/-- `t` is stuck for ever in transaction `j` of a command of `s`, which has no outcome (R10, R11, R112): BUSY stays 1, no later
transaction follows, and neither the result registers nor the flags and MODE are written. -/
def hangs (s t : State) (j : Nat) : Prop :=
  t.busy = true ∧ t.reply = .never ∧ t.draws = s.draws + (j + 1) ∧ t.status = s.status ∧ t.resultLen = s.resultLen ∧
  t.resultData = s.resultData ∧ t.selftestOk = s.selftestOk ∧ t.probeOk = s.probeOk ∧ t.cfgValid = s.cfgValid ∧
  t.mode = s.mode ∧ ∀ n, Sys2Proof.core.run n t = .next t

/-- The move hands over a command. -/
def HostMove.isCommand : HostMove → Bool
  | .command _ _ => true
  | .store _ _ _ => false

/-- The end of a run (R134): BUSY = 0, FAULT empty, and no further command. The host may still write its buffers. -/
def State.ended (s : State) : Bool := !s.busy && s.fault.isEmpty && !s.host.any HostMove.isCommand

/-- The instruction is a host command (R68). -/
def isHostCommand : Instr → Bool
  | .selftest => true
  | .probe => true
  | .configure _ => true
  | .capture => true
  | .reconstruct => true
  | .state => true
  | .cread _ => true
  | .cwrite _ _ => true
  | .dread _ => true
  | .dwrite _ _ => true
  | .dburst _ => true
  | .hostIllegal _ => true
  | .wr8 _ _ => false
  | .end8 => false
  | .wr16 _ _ => false
  | .dbRead _ => false
  | .dbWrite _ _ => false
  | .dbBurst _ _ => false
  | .cbWrite _ _ => false
  | .cbRead _ => false

/-- The frame of the next poll (R104). -/
def pollFrame (p : Params) : Encoded := encode p (.dbRead (dbAddr p.regTrig))

/-- A host store lies inside its buffer. -/
def moveInRange (p : Params) : HostMove → Bool
  | .command _ _ => true
  | .store b i _ => decide (i < bufferSize p b)

/-- Inside a playback, SEQ_PC has not passed the table's end (R18, R86). -/
def State.seqInTable (s : State) : Prop :=
  ∃ t, tableOf s.params s.seqTbl = some t ∧ s.seqPc.toNat ≤ writeCount t ∧
    (s.seqState = .settle → s.seqPc.toNat < writeCount t)

/-- The invariant: what holds in every state the block reaches, of any record that is well formed. -/
structure State.Inv (s : State) : Prop where
  /-- Both buffers keep their canonical form (R41, R42). -/
  bufWf : s.buf.wf = true
  obufWf : s.obuf.wf = true
  /-- and hold nothing outside their size (R51). -/
  bufWithin : s.buf.within s.params.cap = true
  obufWithin : s.obuf.within (s.params.t * s.params.t) = true
  /-- Between commands CFSM is IDLE or CLEARED (R16) and the sequencer is idle (R17). -/
  restCfsm : s.busy = false → s.cfsm = .idle ∨ s.cfsm = .cleared
  restSeq : s.busy = false → s.seqState = .idle
  /-- Chip select is deselected but inside a transaction that has no outcome (R26). -/
  csHigh : s.csN = true ∨ (s.busy = true ∧ s.reply = .never)
  /-- A transaction without an outcome, and a fault, keep the command from ending (R112, R127). -/
  neverBusy : s.reply = .never → s.busy = true
  faultBusy : s.fault ≠ [] → s.busy = true ∧ s.reply = .never
  /-- The transport unit waits only with the next poll of a capture (R104), which is in CAPTURING with the sequencer idle. -/
  busPoll : s.bus = none ∨
    (s.bus = some (pollFrame s.params) ∧ s.busy = true ∧ s.cfsm = .capturing ∧ s.seqState = .idle ∧ s.reply ≠ .never)
  /-- A sequencer under way stays inside its table (R18, R88). -/
  seqRuns : s.seqState ≠ .idle → s.seqInTable
  seqCfsm : s.seqState ≠ .idle → s.cfsm = .idle ∨ s.cfsm = .cleared
  /-- MODE names a mode or none, and names one while CFG_VALID is 1 (R20, R24). -/
  modeKnown : s.mode = 0xFF ∨ s.mode ∈ modes s.params
  cfgMode : s.cfgValid = true → s.mode ∈ modes s.params
  /-- STATUS holds a code of the table, or the reset value (R135). -/
  statusCode : s.status = 0xFF ∨ s.status.toNat ≤ 9
  /-- POLL_CNT stays below the poll limit, and is not counted without one (R23, R105). -/
  pollBound : ∀ k, s.params.pollLimit = some k → s.pollCnt < k
  pollNone : s.params.pollLimit = none → s.pollCnt = 0
  /-- The host's coming stores lie in its buffers. -/
  hostRange : s.host.all (moveInRange s.params) = true

/-! ## The course of a capture -/

/-- The number of transactions CAPTURE makes before its first poll: T1 is skipped when CFSM is not IDLE (R102). -/
def pollIndex (s : State) : Nat := if s.cfsm = .idle then 2 else 1

/-- The length the three length reads give, when the first of them is answer `k` (R107). -/
def lengthAt (s : State) (k : Nat) : Count := fifoLength (s.answerByte k 0) (s.answerByte (k + 1) 0) (s.answerByte (k + 2) 0)

/-- R108: the length passes both checks. -/
abbrev lengthFits (p : Params) (len : Count) : Prop :=
  (p.push = false → len.toNat ≤ p.cap) ∧ (p.raw = true → p.n * p.n ≤ len.toNat)

/-- The events of a capture's writes before its first poll (R102, R103). -/
def startEvents (s : State) : List Event :=
  (if s.cfsm = .idle then [.dbWr (s.params.regFifo.setWidth 7) s.params.fifoClear] else [])
    ++ [.dbWr (s.params.regFifo.setWidth 7) s.params.fifoStart]

/-- The events from a poll that reads `v`, which is done, to the end of a capture whose length reads start at answer `k`
(R104, R107, R109, R110). -/
def finishEvents (s : State) (v : Byte) (k : Nat) : List Event :=
  let p := s.params; let len := lengthAt s k; let bytes := s.answerBytes (k + 3) len.toNat
  [.dbRd (p.regTrig.setWidth 7) v, .dbRd (p.regLen1.setWidth 7) (s.answerByte k 0),
   .dbRd (p.regLen2.setWidth 7) (s.answerByte (k + 1) 0), .dbRd (p.regLen3.setWidth 7) (s.answerByte (k + 2) 0)]
  ++ (if p.push then [.out [p.hdr0, p.hdr1], .out bytes] else []) ++ [.dbBurst len bytes]
  ++ (if p.continuous then [.dbWr (p.regFifo.setWidth 7) p.fifoClear] else [])

/-- What a finished capture leaves, of a state `s` whose length reads start at answer `k` (R100, R107, R109, R110, R113):
every register, and every byte of BUF, OBUF and OUT. -/
def captureLeaves (s t : State) (k : Nat) : Prop :=
  let p := s.params; let len := lengthAt s k
  t = { s with log := t.log, answers := t.answers, draws := t.draws, reply := t.reply, csN := true, bus := none,
               busy := false, cfsm := if p.continuous then .cleared else .idle, pollCnt := t.pollCnt, len := len,
               lenValid := true, drainIdx := len, buf := t.buf, obuf := t.obuf, out := t.out, status := okCode,
               resultLen := if p.raw then BitVec.ofNat 23 (p.t * p.t) else len,
               resultData := if p.raw then len.setWidth 32 else 0 } ∧
  (p.push = true → t.buf = s.buf ∧ t.out = s.out ++ [p.hdr0, p.hdr1] ++ s.answerBytes (k + 3) len.toNat) ∧
  (p.push = false → t.out = s.out ∧ (∀ x, x < len.toNat → t.buf.read x = s.answerByte (k + 3) x) ∧
    ∀ x, len.toNat ≤ x → t.buf.read x = s.buf.read x) ∧
  (p.raw = false → t.obuf = s.obuf) ∧
  (p.raw = true → (∀ r c, r < p.t → c < p.t → t.obuf.read (r * p.t + c) = crop t r c) ∧
    ∀ x, p.t * p.t ≤ x → t.obuf.read x = s.obuf.read x)

/-- The transactions of a capture before its first poll (R102, R103). -/
def startTransactions (s : State) : List Transaction :=
  (if s.cfsm = .idle then [.dbWr (s.params.regFifo.setWidth 7) s.params.fifoClear] else [])
    ++ [.dbWr (s.params.regFifo.setWidth 7) s.params.fifoStart]

/-- The transactions of a capture from a poll that reads capture-done set to its end, with a frame of length `len` (R104,
R107, R109). -/
def finishTransactions (p : Params) (len : Count) : List Transaction :=
  [.dbRd (p.regTrig.setWidth 7), .dbRd (p.regLen1.setWidth 7), .dbRd (p.regLen2.setWidth 7), .dbRd (p.regLen3.setWidth 7),
   .dbBurst len] ++ if p.continuous then [.dbWr (p.regFifo.setWidth 7) p.fifoClear] else []

/-- The events of a capture of `s` before its transaction `j`, when `start` is what it does before its poll: an event for each
transaction, and in push mode the header before the burst and the frame on OUT with it (R102 to R110). -/
def eventsBefore (s : State) (start : List Event) (j : Nat) : List Event :=
  let i := start.length
  (start ++ finishEvents s (s.answerByte i 0) (i + 1)).take (j + if s.params.push then j - (i + 3) else 0)

/-- What a capture of `s` leaves whose transaction `x`, number `j`, is its first to answer `Err`, when `start` is what it does
before its poll (R102 to R111, R136): BUS_ERROR and no later transaction; LEN only where all three length reads succeeded;
of BUF or OUT only what a burst reached, the failed one (R80, R110) or the one before a failed re-clear (R109). -/
def captureFails (s t : State) (start : List Event) (j : Nat) (x : Transaction) : Prop :=
  let p := s.params; let i := start.length; let len := lengthAt s (i + 1); let burst := i + 4
  let before := start ++ finishEvents s (s.answerByte i 0) (i + 1)
  t = { s with log := t.log, answers := s.answers.drop (j + 1), draws := s.draws + (j + 1), reply := t.reply, csN := true,
               busy := false, cfsm := .idle, pollCnt := 0, len := if j < burst then s.len else len,
               lenValid := if j < burst then s.lenValid else true, drainIdx := t.drainIdx, buf := t.buf, out := t.out,
               status := busError, resultLen := 0, resultData := 0 } ∧
  (j < burst → t.drainIdx = s.drainIdx ∧ t.buf = s.buf ∧ t.out = s.out ∧
    t.events = s.events ++ before.take j ++ [.err x]) ∧
  (j = burst → t.drainIdx.toNat ≤ len.toNat ∧
    (p.push = true → t.buf = s.buf ∧ ∃ bytes, bytes.length ≤ len.toNat ∧ t.out = s.out ++ [p.hdr0, p.hdr1] ++ bytes ∧
      t.events = s.events ++ before.take j ++ [.out [p.hdr0, p.hdr1], .out bytes, .err x]) ∧
    (p.push = false → t.out = s.out ∧ (∀ k, len.toNat ≤ k → t.buf.read k = s.buf.read k) ∧
      t.events = s.events ++ before.take j ++ [.err x])) ∧
  (burst < j → t.drainIdx = len ∧ t.events = s.events ++ before.dropLast ++ [.err x] ∧
    (p.push = true → t.buf = s.buf ∧ t.out = s.out ++ [p.hdr0, p.hdr1] ++ s.answerBytes burst len.toNat) ∧
    (p.push = false → t.out = s.out ∧ (∀ k, k < len.toNat → t.buf.read k = s.answerByte burst k) ∧
      ∀ k, len.toNat ≤ k → t.buf.read k = s.buf.read k))

/-- What a capture of `s` leaves whose length fails a check of R108, when `start` is what it does before its poll: nothing
drained, LEN kept, and `code`. -/
def frameRefused (s t : State) (start : List Event) (code : Byte) : Prop :=
  let i := start.length
  t = { s with log := t.log, answers := s.answers.drop (i + 4), draws := s.draws + (i + 4), reply := t.reply, csN := true,
               busy := false, cfsm := .idle, pollCnt := 0, len := lengthAt s (i + 1), lenValid := true, status := code,
               resultLen := 0, resultData := 0 } ∧
  t.events = s.events ++ start ++ (finishEvents s (s.answerByte i 0) (i + 1)).take 4

/-- A capture that waits for its next poll (R104). -/
abbrev polling (s : State) : Prop :=
  recordWf s.params = true ∧ s.clear = true ∧ s.busy = true ∧ s.cfsm = .capturing ∧ s.bus = some (pollFrame s.params) ∧
  s.reply ≠ .never

end Sys2Proof.Machine
end

