-- ==== Sys2Proof/Certificates/Slice0/Obligations.lean ====
section
/-! DEFINITION. The statements for the provers. None depends on a chip-select settle wait in LOG (R75): they speak of
`State.events`. `t = { s with f := t.f, … }` says that `t` differs from `s` at most in the fields named. -/

open Sys2Proof Sys2Proof.Machine

/-! ## Encoding (30_encoding.md) -/

/-- R64 to R69: decoding the encoding of any well-formed instruction gives it back. The control-bus framing is the spec's
general-knowledge one (log entry 12). -/
def Obligations.DecodeEncodeAgree : Prop :=
  ∀ (p : Params) (i : Instr), recordWf p = true → i.wf p = true → decode p (encode p i) = .ok i

/-- R68, R128: every host command has one reading: encoding what its bytes decode to gives the bytes back. -/
def Obligations.HostBytesReencode : Prop :=
  ∀ (p : Params) (bytes : List Byte), recordWf p = true →
    encode p (decodeHost p.addrW bytes) = .host bytes

/-- R71, R128: the bytes decode to HOST_ILLEGAL exactly when they are no legal command: an unknown opcode or a wrong operand
count. That no bytes at all are illegal too is the model's reading (log entry 10). -/
def Obligations.IllegalCommandsAreTheRest : Prop :=
  ∀ (addrW : Nat) (bytes : List Byte),
    decodeHost addrW bytes = .hostIllegal bytes ↔ legalCommand addrW bytes = false

/-- R64 to R68: words written out from the spec's encodings (95_test_vectors.md section 3.1) decode to their instruction. The
control-bus framing is the spec's general-knowledge one (log entry 12). -/
def Obligations.SpecWordsDecode : Prop :=
  decode Config.ref8 (.host [0x03, 0x02]) = .ok (.configure 0x02) ∧
  decode Config.ref8 (.host [0x11, 0x12, 0x80]) = .ok (.cwrite 0x12 0x80) ∧
  decode { Config.ref8 with variant := .sensor16, addrW := 16 } (.host [0x10, 0x30, 0x00]) = .ok (.cread 0x3000) ∧
  decode Config.ref8 (.host [0x14, 0x7F, 0xFF, 0xFF]) = .ok (.dburst 0x7FFFFF) ∧
  decode Config.ref8 (.host [0x01, 0x00]) = .ok (.hostIllegal [0x01, 0x00]) ∧
  decode Config.ref8 (.tbl8 0x1280) = .ok (.wr8 0x12 0x80) ∧
  decode Config.ref8 (.tbl8 0xFFFF) = .ok .end8 ∧
  decode Config.ref8 (.tbl16 0x300001) = .ok (.wr16 0x3000 0x01) ∧
  decode Config.ref8 (.db .write [0x84, 0x02] 0) = .ok (.dbWrite 0x04 0x02) ∧
  decode Config.ref8 (.db .read [0x41] 1) = .ok (.dbRead 0x41) ∧
  decode Config.ref8 (.db (.burst .buf) [0x3C] 16) = .ok (.dbBurst 16 .buf) ∧
  decode Config.ref8 (.cb [.start, .byte 0x60, .ack, .byte 0x12, .ack, .byte 0x80, .ack, .stop]) = .ok (.cbWrite 0x12 0x80) ∧
  decode Config.ref8
    (.cb [.start, .byte 0x60, .ack, .byte 0x0A, .ack, .restart, .byte 0x61, .ack, .received, .nack, .stop])
    = .ok (.cbRead 0x0A)

/-! ## Reset and the record (70_reset_and_hazards.md, 00_scope.md) -/

/-- R150: what reset leaves, of any record and any contents of the host's buffers. LEN and SEQ_TBL, to which R150 gives no
value, are not mentioned. R7, with the two conditions of log entry 9 that the model adds (the identity addresses fit, no mode
code twice): with a record that is ill formed by either there is no block, and its step is refused. -/
def Obligations.ResetValues : Prop :=
  ∀ (p : Params) (buf obuf : Memory), let s := State.resetWith p buf obuf
    s.params = p ∧ s.busy = false ∧ s.fault = [] ∧ s.cfsm = .idle ∧ s.seqState = .idle ∧ s.seqPc = 0 ∧ s.mode = 0xFF ∧
    s.lenValid = false ∧ s.drainIdx = 0 ∧ s.pollCnt = 0 ∧ s.selftestOk = false ∧ s.probeOk = false ∧ s.cfgValid = false ∧
    s.status = 0xFF ∧ s.resultLen = 0 ∧ s.resultData = 0 ∧ s.csN = true ∧ s.out = [] ∧ s.log = [] ∧
    s.buf = buf ∧ s.obuf = obuf ∧ (recordWf p = false → step s = .refused .illFormedRecord)

/-- R7, R86: the record of a block that runs. `recordWf` holds exactly of a record that meets the twelve items of R7 and the
two conditions of log entry 9 that the model adds: the identity addresses fit in P_ADDR_W bits, no mode code is there twice.
Every step on a record without them is refused, and no step on one with them is refused as ill formed. -/
def Obligations.RecordMustBeWellFormed : Prop :=
  (∀ s : State, recordWf s.params = false ↔ step s = .refused .illFormedRecord) ∧
  ∀ p : Params, recordWf p = true ↔
    ((p.addrW = 8 ↔ p.variant = .sensor8) ∧ (p.addrW = 8 ∨ p.addrW = 16)) ∧
    (p.defaultMode ∈ modes p ∧ ∀ m ∈ modes p, m.toNat < 0xFF) ∧
    ((∀ r t, tableOf p r = some t →
      (∃ ws, t = .tbl8 ws ∧ p.variant = .sensor8 ∧ 0xFFFF ∈ ws ∧ writeCount t ≤ 65535) ∨
      (∃ ws, t = .tbl16 ws ∧ p.variant = .sensor16 ∧ ws.length ≤ 65535)) ∧
     ∀ r i, settleAfter p r i = true → ∃ t, tableOf p r = some t ∧ i < writeCount t) ∧
    (p.regFifo.toNat ≤ 0x7F ∧ p.regTrig.toNat ≤ 0x7F ∧ p.regLen1.toNat ≤ 0x7F ∧ p.regLen2.toNat ≤ 0x7F ∧
      p.regLen3.toNat ≤ 0x7F ∧ p.regScratch.toNat ≤ 0x7F ∧ (p.burstCmd &&& 0x7F).toNat ≤ 0x7F) ∧
    p.capDone ≠ 0 ∧ (p.n % 2 = 0 ∧ 2 ≤ p.n) ∧ (1 ≤ p.t ∧ p.t ≤ p.n / 2 ∧ (p.n / 2 - p.t) % 2 = 0) ∧
    p.t * p.t < 2 ^ 23 ∧ p.cap < 2 ^ 23 ∧ (p.raw = true → p.n * p.n ≤ p.cap) ∧ ¬ (p.raw = true ∧ p.push = true) ∧
    (∀ k, p.pollLimit = some k → 1 ≤ k) ∧
    (p.idHAddr.toNat < 2 ^ p.addrW ∧ p.idLAddr.toNat < 2 ^ p.addrW ∧ (modes p).Nodup)

/-! ## The whole machine -/

/-- The invariant holds after reset, of any well-formed record and any buffers in canonical form and size. Its clauses on
`reply`, `bus` and `host` are about the model's own fields (log entries 3 and 6). -/
def Obligations.InvariantAtReset : Prop :=
  State.reset.Inv ∧
  ∀ (p : Params) (buf obuf : Memory), recordWf p = true → buf.wf = true → obuf.wf = true → buf.within p.cap = true →
    obuf.within (p.t * p.t) = true → (State.resetWith p buf obuf).Inv

/-- R16, R17, R18, R20, R23, R26, R51, R135: every step keeps the invariant `State.Inv`. Its clauses on `reply`, `bus` and
`host` are about the model's own fields (log entries 3 and 6). -/
def Obligations.InvariantKept : Prop :=
  ∀ s t : State, recordWf s.params = true → s.Inv → step s = .next t → t.Inv

/-- R15, R51, R86, R138: a block of a well-formed record that is not faulted always takes its step: no fault, no refusal.
How a run is cut into steps is the model's choice (log entry 3). -/
def Obligations.UnfaultedBlockAlwaysSteps : Prop :=
  ∀ s : State, recordWf s.params = true → s.Inv → s.fault = [] → ∃ t, step s = .next t

/-- R15, R126: a faulted block takes no step and accepts no command. -/
def Obligations.FaultedBlockStops : Prop :=
  ∀ s : State, recordWf s.params = true → s.fault ≠ [] →
    step s = .fault .busyViolation ∧ ∀ i, isHostCommand i = true → exec i s = .fault .busyViolation

/-- R6, R15, R43, R44: no step changes the record, removes a byte of OUT or an event of LOG, or clears a fault reason. -/
def Obligations.HistoryOnlyGrows : Prop :=
  ∀ s t : State, step s = .next t →
    t.params = s.params ∧ s.log <+: t.log ∧ s.out <+: t.out ∧ ∀ r ∈ s.fault, r ∈ t.fault

/-- A step runs the instruction its bytes decode to: a host command as it is (R126, R128); a table entry at SEQ_PC (R89),
after which a playback that has ended returns to its command; the frame that waits in the transport unit (R104), after
which a polling capture takes the answer. How a run is cut
into steps is the model's choice (log entry 3). -/
def Obligations.StepRunsDecodedInstruction : Prop :=
  ∀ (s : State) (i : Instr), recordWf s.params = true → s.fault = [] →
    (∀ bytes early rest, s.busy = false → s.bus = none → s.seqState = .idle → s.host = .command bytes early :: rest →
      decode s.params (.host bytes) = .ok i → step s = exec i { s with host := rest }) ∧
    (∀ tbl f, stuck s = false → s.bus = none → s.seqState = .run → tableOf s.params s.seqTbl = some tbl →
      atTableEnd tbl s.seqPc.toNat = false → tbl.formAt s.seqPc.toNat = some f → decode s.params f = .ok i →
      ∀ t, exec i s = .next t → step s = .next (afterEntry t)) ∧
    (∀ f, stuck s = false → s.bus = some f → decode s.params f = .ok i →
      ∀ t, exec i { s with bus := none } = .next t → step s = .next (afterFrame t))

/-- R149, R134: between commands, with no host move, a step keeps every register; and once a run has ended, with no further
command, a step changes nothing but a byte of BUF or OBUF that the host itself writes, and the run stays ended. That the idle
block's step and the host's write are next states at all is the model's choice (log entry 6). -/
def Obligations.IdleBlockKeepsEverything : Prop :=
  ∀ s : State, recordWf s.params = true → s.fault = [] → s.busy = false → s.bus = none → s.seqState = .idle →
    (s.host = [] → step s = .next s) ∧
    (s.ended = true → s.host.all (moveInRange s.params) = true → ∃ t, step s = .next t ∧ t.ended = true ∧
      t = { s with host := s.host.tail, buf := t.buf, obuf := t.obuf } ∧
      ∀ b i, (∀ v rest, s.host ≠ .store b i v :: rest) → (s.contents b).wf = true →
        (t.contents b).read i = (s.contents b).read i)

/-- R133, R51: between commands the host writes a byte of its own buffer; it reads back, nothing else changes; an index
outside the buffer faults. The host's move as a step of its own is the model's choice (log entry 6). -/
def Obligations.HostStoreStep : Prop :=
  ∀ (s : State) (b : HostBuffer) (i : Nat) (v : Byte) (rest : List HostMove), recordWf s.params = true → s.fault = [] →
    s.busy = false → s.bus = none → s.seqState = .idle → s.host = .store b i v :: rest → (s.contents b).wf = true →
    (bufferSize s.params b ≤ i → step s = .fault .outOfRange) ∧
    (i < bufferSize s.params b → ∃ t, step s = .next t ∧ (t.contents b).read i = v ∧
      (∀ k, k ≠ i → (t.contents b).read k = (s.contents b).read k) ∧
      (b = .buf → t = { s with host := rest, buf := t.buf }) ∧
      (b = .obuf → t = { s with host := rest, obuf := t.obuf }))

/-! ## The transactions (40_transport.md R74 to R80) -/

/-- R76: CB_WRITE and what each of the three outcomes leaves. -/
def Obligations.CbWriteTransaction : Prop :=
  ∀ (a : CbAddr) (v : Byte) (s : State), s.clear = true → ∃ t, exec (.cbWrite a v) s = .next t ∧
    t = { s with log := t.log, answers := s.answers.tail, draws := s.draws + 1, reply := t.reply } ∧
    (s.saysOk 0 = true → t.reply = .ok 0 ∧ t.events = s.events ++ [.cbWr a v]) ∧
    (s.saysErr 0 = true → t.reply = .err ∧ t.events = s.events ++ [.err (.cbWr a v)]) ∧
    (s.saysNothing 0 = true → t.reply = .never ∧ t.events = s.events)

/-- R77: CB_READ and what each of the three outcomes leaves. -/
def Obligations.CbReadTransaction : Prop :=
  ∀ (a : CbAddr) (s : State), s.clear = true → ∃ t, exec (.cbRead a) s = .next t ∧
    t = { s with log := t.log, answers := s.answers.tail, draws := s.draws + 1, reply := t.reply } ∧
    (s.saysOk 0 = true →
      t.reply = .ok (s.answerByte 0 0) ∧ t.events = s.events ++ [.cbRd a (s.answerByte 0 0)]) ∧
    (s.saysErr 0 = true → t.reply = .err ∧ t.events = s.events ++ [.err (.cbRd a)]) ∧
    (s.saysNothing 0 = true → t.reply = .never ∧ t.events = s.events)

/-- R78, R26: DB_WRITE; CS_N ends at 1 in every case that completes. That it stays selected in one that does not is the
model's reading (log entry 14). -/
def Obligations.DbWriteTransaction : Prop :=
  ∀ (a : DbAddr) (v : Byte) (s : State), s.clear = true → ∃ t, exec (.dbWrite a v) s = .next t ∧
    t = { s with log := t.log, answers := s.answers.tail, draws := s.draws + 1, reply := t.reply, csN := t.csN } ∧
    (s.saysOk 0 = true → t.reply = .ok 0 ∧ t.csN = true ∧ t.events = s.events ++ [.dbWr a v]) ∧
    (s.saysErr 0 = true → t.reply = .err ∧ t.csN = true ∧ t.events = s.events ++ [.err (.dbWr a v)]) ∧
    (s.saysNothing 0 = true → t.reply = .never ∧ t.csN = false ∧ t.events = s.events)

/-- R79, R26: DB_READ; the byte read is the module's. That CS_N stays selected in a transaction without an outcome is the
model's reading (log entry 14). -/
def Obligations.DbReadTransaction : Prop :=
  ∀ (a : DbAddr) (s : State), s.clear = true → ∃ t, exec (.dbRead a) s = .next t ∧
    t = { s with log := t.log, answers := s.answers.tail, draws := s.draws + 1, reply := t.reply, csN := t.csN } ∧
    (s.saysOk 0 = true →
      t.reply = .ok (s.answerByte 0 0) ∧ t.csN = true ∧ t.events = s.events ++ [.dbRd a (s.answerByte 0 0)]) ∧
    (s.saysErr 0 = true → t.reply = .err ∧ t.csN = true ∧ t.events = s.events ++ [.err (.dbRd a)]) ∧
    (s.saysNothing 0 = true → t.reply = .never ∧ t.csN = false ∧ t.events = s.events)

/-- R80, R47: DB_BURST into BUF: the bytes land in arrival order from index 0; after `Err` only the first `n` bytes and
DRAIN_IDX (at most `n`) are open; bytes from `n` on never change; an index outside BUF must fault (R51), which the model does
for the whole of a burst longer than BUF (log entry 15). That CS_N and DRAIN_IDX stay at 0 in a burst without an outcome is
the model's reading (log entry 14). -/
def Obligations.DbBurstIntoBuf : Prop :=
  ∀ (n : Count) (s : State), s.clear = true → s.buf.wf = true →
    (s.params.cap < n.toNat → exec (.dbBurst n .buf) s = .fault .outOfRange) ∧
    (n.toNat ≤ s.params.cap → ∃ t, exec (.dbBurst n .buf) s = .next t ∧
      t = { s with log := t.log, answers := s.answers.tail, draws := s.draws + 1, reply := t.reply, csN := t.csN,
                   drainIdx := t.drainIdx, buf := t.buf } ∧
      (∀ k, n.toNat ≤ k → t.buf.read k = s.buf.read k) ∧
      (s.saysOk 0 = true → t.reply = .ok 0 ∧ t.csN = true ∧ t.drainIdx = n ∧
        (∀ k, k < n.toNat → t.buf.read k = s.answerByte 0 k) ∧
        t.events = s.events ++ [.dbBurst n (s.answerBytes 0 n.toNat)]) ∧
      (s.saysErr 0 = true → t.reply = .err ∧ t.csN = true ∧ t.drainIdx.toNat ≤ n.toNat ∧
        t.events = s.events ++ [.err (.dbBurst n)]) ∧
      (s.saysNothing 0 = true → t.reply = .never ∧ t.csN = false ∧ t.drainIdx = 0 ∧ t.buf = s.buf ∧ t.events = s.events))

/-- R80, R110: DB_BURST onto OUT: all `n` bytes after `Ok`, at most `n` after `Err`, appended in order; BUF is not written.
That a burst of no bytes, or a failed one that appends none, still logs its OUT event is the model's reading (log entry 11),
and so is that CS_N and DRAIN_IDX stay at 0 in a burst without an outcome (log entry 14). -/
def Obligations.DbBurstOntoOut : Prop :=
  ∀ (n : Count) (s : State), s.clear = true → ∃ t, exec (.dbBurst n .out) s = .next t ∧
    t = { s with log := t.log, answers := s.answers.tail, draws := s.draws + 1, reply := t.reply, csN := t.csN,
                 drainIdx := t.drainIdx, out := t.out } ∧
    (s.saysOk 0 = true → t.reply = .ok 0 ∧ t.csN = true ∧ t.drainIdx = n ∧ t.out = s.out ++ s.answerBytes 0 n.toNat ∧
      t.events = s.events ++ [.out (s.answerBytes 0 n.toNat), .dbBurst n (s.answerBytes 0 n.toNat)]) ∧
    (s.saysErr 0 = true → t.reply = .err ∧ t.csN = true ∧ t.drainIdx.toNat ≤ n.toNat ∧
      ∃ bytes, bytes.length ≤ n.toNat ∧ t.out = s.out ++ bytes ∧ t.events = s.events ++ [.out bytes, .err (.dbBurst n)]) ∧
    (s.saysNothing 0 = true → t.reply = .never ∧ t.csN = false ∧ t.drainIdx = 0 ∧ t.out = s.out ∧ t.events = s.events)

/-! ## The raw commands (R81 to R85) -/

/-- R81: CREAD, the byte read as its data, or BUS_ERROR. -/
def Obligations.CreadResult : Prop :=
  ∀ (a : CbAddr) (s : State), s.accepting = true → ∃ t, exec (.cread a) s = .next t ∧
    (s.saysOk 0 = true →
      t = { s with log := t.log, answers := t.answers, draws := t.draws, reply := t.reply, status := okCode, resultLen := 1,
                   resultData := (s.answerByte 0 0).setWidth 32 } ∧
      t.events = s.events ++ [.cbRd a (s.answerByte 0 0)]) ∧
    (s.saysErr 0 = true →
      t = { s with log := t.log, answers := t.answers, draws := t.draws, reply := t.reply, status := busError,
                   resultLen := 0, resultData := 0 } ∧
      t.events = s.events ++ [.err (.cbRd a)]) ∧
    (s.saysNothing 0 = true → t.busy = true ∧ t.reply = .never ∧ t.status = s.status)

/-- R82: CWRITE; CFG_VALID and MODE are unchanged, as every other register. -/
def Obligations.CwriteResult : Prop :=
  ∀ (a : CbAddr) (v : Byte) (s : State), s.accepting = true → ∃ t, exec (.cwrite a v) s = .next t ∧
    (s.saysOk 0 = true →
      t = { s with log := t.log, answers := t.answers, draws := t.draws, reply := t.reply, status := okCode, resultLen := 0,
                   resultData := 0 } ∧
      t.events = s.events ++ [.cbWr a v]) ∧
    (s.saysErr 0 = true →
      t = { s with log := t.log, answers := t.answers, draws := t.draws, reply := t.reply, status := busError,
                   resultLen := 0, resultData := 0 } ∧
      t.events = s.events ++ [.err (.cbWr a v)]) ∧
    (s.saysNothing 0 = true → t.busy = true ∧ t.reply = .never ∧ t.status = s.status)

/-- R83: DREAD; an address above 0x7F is BAD_ARGUMENT with no transaction. That CS_N stays selected in a transaction without an
outcome is the model's reading (log entry 14). -/
def Obligations.DreadResult : Prop :=
  ∀ (a : Byte) (s : State), s.accepting = true → ∃ t, exec (.dread a) s = .next t ∧
    (0x7F < a.toNat →
      t = { s with reply := t.reply, status := badArgument, resultLen := 0, resultData := 0 }) ∧
    (a.toNat ≤ 0x7F → s.saysOk 0 = true →
      t = { s with log := t.log, answers := t.answers, draws := t.draws, reply := t.reply, csN := true, status := okCode,
                   resultLen := 1, resultData := (s.answerByte 0 0).setWidth 32 } ∧
      t.events = s.events ++ [.dbRd (a.setWidth 7) (s.answerByte 0 0)]) ∧
    (a.toNat ≤ 0x7F → s.saysErr 0 = true →
      t = { s with log := t.log, answers := t.answers, draws := t.draws, reply := t.reply, csN := true, status := busError,
                   resultLen := 0, resultData := 0 } ∧
      t.events = s.events ++ [.err (.dbRd (a.setWidth 7))]) ∧
    (a.toNat ≤ 0x7F → s.saysNothing 0 = true → t.busy = true ∧ t.reply = .never ∧ t.csN = false ∧ t.status = s.status)

/-- R84: DWRITE; CFSM is unchanged whatever is written, as every other register. That CS_N stays selected in a transaction
without an outcome is the model's reading (log entry 14). -/
def Obligations.DwriteResult : Prop :=
  ∀ (a v : Byte) (s : State), s.accepting = true → ∃ t, exec (.dwrite a v) s = .next t ∧
    (0x7F < a.toNat →
      t = { s with reply := t.reply, status := badArgument, resultLen := 0, resultData := 0 }) ∧
    (a.toNat ≤ 0x7F → s.saysOk 0 = true →
      t = { s with log := t.log, answers := t.answers, draws := t.draws, reply := t.reply, csN := true, status := okCode,
                   resultLen := 0, resultData := 0 } ∧
      t.events = s.events ++ [.dbWr (a.setWidth 7) v]) ∧
    (a.toNat ≤ 0x7F → s.saysErr 0 = true →
      t = { s with log := t.log, answers := t.answers, draws := t.draws, reply := t.reply, csN := true, status := busError,
                   resultLen := 0, resultData := 0 } ∧
      t.events = s.events ++ [.err (.dbWr (a.setWidth 7) v)]) ∧
    (a.toNat ≤ 0x7F → s.saysNothing 0 = true → t.busy = true ∧ t.reply = .never ∧ t.csN = false ∧ t.status = s.status)

/-- R85: DBURST; the bytes are in BUF in order, LEN and LEN_VALID unchanged; a count that does not fit is BAD_ARGUMENT with
no transaction; a burst without an outcome leaves the command stuck, with no response (R10). That CS_N and DRAIN_IDX stay at 0
in it is the model's reading (log entry 14). -/
def Obligations.DburstResult : Prop :=
  ∀ (n : BitVec 24) (s : State), s.accepting = true → s.buf.wf = true → ∃ t, exec (.dburst n) s = .next t ∧
    ((2 ^ 23 ≤ n.toNat ∨ s.params.cap < n.toNat) →
      t = { s with reply := t.reply, status := badArgument, resultLen := 0, resultData := 0 }) ∧
    (n.toNat < 2 ^ 23 → n.toNat ≤ s.params.cap →
      (∀ k, n.toNat ≤ k → t.buf.read k = s.buf.read k) ∧
      (s.saysOk 0 = true →
        t = { s with log := t.log, answers := t.answers, draws := t.draws, reply := t.reply, csN := true, buf := t.buf,
                     drainIdx := n.setWidth 23, status := okCode, resultLen := n.setWidth 23, resultData := 0 } ∧
        (∀ k, k < n.toNat → t.buf.read k = s.answerByte 0 k) ∧
        t.events = s.events ++ [.dbBurst (n.setWidth 23) (s.answerBytes 0 n.toNat)]) ∧
      (s.saysErr 0 = true →
        t = { s with log := t.log, answers := t.answers, draws := t.draws, reply := t.reply, csN := true, buf := t.buf,
                     drainIdx := t.drainIdx, status := busError, resultLen := 0, resultData := 0 } ∧
        t.events = s.events ++ [.err (.dbBurst (n.setWidth 23))]) ∧
      (s.saysNothing 0 = true →
        t = { s with busy := true, log := t.log, answers := t.answers, draws := t.draws, reply := .never, csN := false,
                     drainIdx := 0 } ∧
        t.events = s.events))

/-! ## The startup checks (43_selftest.md) -/

/-- R115: the pass predicate, on every pair of bytes. -/
def Obligations.ProbePassesExactlyOnKnownIds : Prop :=
  ∀ h l : Byte, probePass h l = true ↔ h = 0x26 ∧ (l = 0x40 ∨ l = 0x41 ∨ l = 0x42)

/-- R114: SELFTEST, each of its ends; it writes SELFTEST_OK and no other flag; a transaction without an outcome leaves it stuck,
with no response and SELFTEST_OK unchanged (R10). That CS_N stays selected in it is the model's reading (log entry 14). -/
def Obligations.SelftestResult : Prop :=
  ∀ s : State, s.accepting = true → let p := s.params; let scratch : DbAddr := p.regScratch.setWidth 7
    let v := s.answerByte 1 0
    ∃ t, exec .selftest s = .next t ∧
    (s.saysErr 0 = true →
      t = { s with log := t.log, answers := t.answers, draws := t.draws, reply := t.reply, csN := true, selftestOk := false,
                   status := busError, resultLen := 0, resultData := 0 } ∧
      t.events = s.events ++ [.err (.dbWr scratch p.scratchVal)]) ∧
    (s.saysOk 0 = true → s.saysErr 1 = true →
      t = { s with log := t.log, answers := t.answers, draws := t.draws, reply := t.reply, csN := true, selftestOk := false,
                   status := busError, resultLen := 0, resultData := 0 } ∧
      t.events = s.events ++ [.dbWr scratch p.scratchVal, .err (.dbRd scratch)]) ∧
    (s.saysOk 0 = true → s.saysOk 1 = true →
      t = { s with log := t.log, answers := t.answers, draws := t.draws, reply := t.reply, csN := true,
                   selftestOk := decide (v = p.scratchVal), status := if v = p.scratchVal then okCode else probeFail,
                   resultLen := 0, resultData := v.setWidth 32 } ∧
      t.events = s.events ++ [.dbWr scratch p.scratchVal, .dbRd scratch v]) ∧
    (s.saysNothing 0 = true →
      t = { s with busy := true, log := t.log, answers := t.answers, draws := t.draws, reply := .never, csN := false } ∧
      t.events = s.events) ∧
    (s.saysOk 0 = true → s.saysNothing 1 = true →
      t = { s with busy := true, log := t.log, answers := t.answers, draws := t.draws, reply := .never, csN := false } ∧
      t.events = s.events ++ [.dbWr scratch p.scratchVal])

/-- R116, R115, R89: PROBE starts the playback of its prelude; when the prelude's writes all answer `Ok`, playback ends in the
reading of both identity registers, the high byte first, and PROBE_OK is the comparison's result; MODE and CFG_VALID are
unchanged. How a run is cut into steps is the model's choice (log entry 3). -/
def Obligations.ProbeResult : Prop :=
  ∀ s : State, s.accepting = true → recordWf s.params = true → s.bus = none →
    let p := s.params; let k := writeCount p.probePrelude
    s.allOk (k + 2) = true → let h := s.answerByte k 0; let l := s.answerByte (k + 1) 0
    exec .probe s = .next (s.starts .prelude) ∧ ∃ n t, endsIn (s.starts .prelude) n t ∧
      t = { s with log := t.log, answers := s.answers.drop (k + 2), draws := s.draws + (k + 2), reply := t.reply,
                   seqTbl := .prelude, seqPc := BitVec.ofNat 16 k, seqState := .idle, probeOk := probePass h l,
                   status := if probePass h l then okCode else probeFail, resultLen := 0,
                   resultData := h.setWidth 32 <<< 8 ||| l.setWidth 32 } ∧
      t.events = s.events ++ playEvents p .prelude (writes p.probePrelude) 0 ++ [.cbRd p.idHAddr h, .cbRd p.idLAddr l]

/-- R116, R95, R136: PROBE when transaction `j`, a write of its prelude or one of its two reads, is the first to answer `Err`:
BUS_ERROR, never CONFIG_ERROR, PROBE_OK = 0, SEQ_PC at the failed entry or at the prelude's end, and no later transaction;
MODE and CFG_VALID are unchanged. How a run is cut into steps is the model's choice (log entry 3). -/
def Obligations.ProbeFailure : Prop :=
  ∀ (s : State) (j : Nat) (x : Transaction), s.accepting = true → recordWf s.params = true → s.bus = none →
    let p := s.params; let ws := writes p.probePrelude; let k := ws.length
    (ws.map (fun e => Transaction.cbWr e.1 e.2) ++ [.cbRd p.idHAddr, .cbRd p.idLAddr])[j]? = some x →
    s.allOk j = true → s.saysErr j = true →
    exec .probe s = .next (s.starts .prelude) ∧ ∃ n t, endsIn (s.starts .prelude) n t ∧
      t = { s with log := t.log, answers := s.answers.drop (j + 1), draws := s.draws + (j + 1), reply := t.reply,
                   seqTbl := .prelude, seqPc := BitVec.ofNat 16 (min j k), seqState := .idle, probeOk := false,
                   status := busError, resultLen := 0, resultData := 0 } ∧
      t.events = s.events ++ playEvents p .prelude (ws.take j) 0 ++
        (if j = k + 1 then [.cbRd p.idHAddr (s.answerByte k 0)] else []) ++ [.err x]

/-! ## The sequencer (41_sequencer.md) -/

/-- R88, R90, R92, R94, R95: a write entry, WR8 or WR16: `Ok` goes to the next entry, or to SEQ_SETTLE with its wait where
the entry is marked; `Err` returns to SEQ_IDLE with SEQ_PC kept; with no outcome the sequencer stays. -/
def Obligations.WriteEntryResult : Prop :=
  ∀ (s : State) (i : Instr) (a : CbAddr) (v : Byte), ((∃ b : Byte, i = .wr8 b v ∧ a = b.setWidth 16) ∨ i = .wr16 a v) →
    s.clear = true → ∃ t, exec i s = .next t ∧
    t = { s with log := t.log, answers := s.answers.tail, draws := s.draws + 1, reply := t.reply, seqState := t.seqState,
                 seqPc := t.seqPc } ∧
    (s.saysOk 0 = true → settleAfter s.params s.seqTbl s.seqPc.toNat = false →
      t.reply = .ok 0 ∧ t.seqState = s.seqState ∧ t.seqPc = s.seqPc + 1 ∧ t.events = s.events ++ [.cbWr a v]) ∧
    (s.saysOk 0 = true → settleAfter s.params s.seqTbl s.seqPc.toNat = true →
      t.reply = .ok 0 ∧ t.seqState = .settle ∧ t.seqPc = s.seqPc ∧
      t.events = s.events ++ [.cbWr a v, .wait .initSettle]) ∧
    (s.saysErr 0 = true →
      t.reply = .err ∧ t.seqState = .idle ∧ t.seqPc = s.seqPc ∧ t.events = s.events ++ [.err (.cbWr a v)]) ∧
    (s.saysNothing 0 = true →
      t.reply = .never ∧ t.seqState = s.seqState ∧ t.seqPc = s.seqPc ∧ t.events = s.events)

/-- R91: END8 ends the playback with `Ok`: no transaction, SEQ_PC not advanced. -/
def Obligations.TerminatorEndsPlayback : Prop :=
  ∀ s : State, s.clear = true → exec .end8 s = .next { s with seqState := .idle, reply := .ok 0 }

/-- R88, R94: in SEQ_SETTLE a step ends the wait: the next entry, back in SEQ_RUN. How a run is cut into steps is the model's
choice (log entry 3). -/
def Obligations.SettleWaitEnds : Prop :=
  ∀ s : State, recordWf s.params = true → s.clear = true → stuck s = false → s.bus = none → s.seqState = .settle →
    step s = .next { s with seqState := .run, seqPc := s.seqPc + 1 }

/-- R93: at the end of a TBL16 table playback ends with `Ok` and no transaction: the step gives the command that played it
the state an END8 would leave.
How a run is cut into steps is the model's choice (log entry 3). -/
def Obligations.LengthEndsPlayback : Prop :=
  ∀ (s : State) (ws : List (BitVec 24)), recordWf s.params = true → s.clear = true → s.busy = true → s.reply ≠ .never →
    s.bus = none → s.seqState = .run → tableOf s.params s.seqTbl = some (.tbl16 ws) → s.seqPc.toNat = ws.length →
    step s = .next (playReturned { s with seqState := .idle, reply := .ok 0 })

/-- R96, R97, R87, R89: CONFIGURE starts the playback of the resolved mode's table; when every write of it answers `Ok`,
playback makes exactly the table's writes in table order, with the waits of its marks, and ends in CFG_VALID = 1, MODE the
resolved mode, OK with the mode as data. How a run is cut into steps is the model's choice (log entry 3). -/
def Obligations.ConfigureResult : Prop :=
  ∀ (s : State) (m : Byte) (tbl : RegisterTable), s.accepting = true → recordWf s.params = true → s.bus = none →
    let p := s.params; let m' := resolve p m; let k := writeCount tbl
    tableOf p (.mode m') = some tbl → s.allOk k = true →
    exec (.configure m) s = .next (s.starts (.mode m')) ∧ ∃ n t, endsIn (s.starts (.mode m')) n t ∧
      t = { s with log := t.log, answers := s.answers.drop k, draws := s.draws + k, reply := t.reply, seqTbl := .mode m',
                   seqPc := BitVec.ofNat 16 k, seqState := .idle, cfgValid := true, mode := m', status := okCode,
                   resultLen := 0, resultData := m'.setWidth 32 } ∧
      t.events = s.events ++ playEvents p (.mode m') (writes tbl) 0

/-- R95, R96, R136: CONFIGURE when write `j` is the first to answer `Err`: the `j` writes before it, then nothing more;
CONFIG_ERROR (never BUS_ERROR), CFG_VALID = 0, MODE = 0xFF, SEQ_PC at the failed entry. How a run is cut into steps is the
model's choice (log entry 3). -/
def Obligations.ConfigureFailure : Prop :=
  ∀ (s : State) (m : Byte) (tbl : RegisterTable) (j : Nat) (a : CbAddr) (v : Byte), s.accepting = true →
    recordWf s.params = true → s.bus = none → let p := s.params; let m' := resolve p m
    tableOf p (.mode m') = some tbl → (writes tbl)[j]? = some (a, v) → s.allOk j = true → s.saysErr j = true →
    exec (.configure m) s = .next (s.starts (.mode m')) ∧ ∃ n t, endsIn (s.starts (.mode m')) n t ∧
      t = { s with log := t.log, answers := s.answers.drop (j + 1), draws := s.draws + (j + 1), reply := t.reply,
                   seqTbl := .mode m', seqPc := BitVec.ofNat 16 j, seqState := .idle, cfgValid := false, mode := 0xFF,
                   status := configError, resultLen := 0, resultData := 0 } ∧
      t.events = s.events ++ playEvents p (.mode m') ((writes tbl).take j) 0 ++ [.err (.cbWr a v)]

/-- R88, R89, D22: CONFIGURE and PROBE play their table one entry a step: the steps from the start of the playback, one for each
write entry, one for each settle wait and one for the table's end, come to what the loop of R89 gives, handed to its command.
In none of them does SEQ_PC rise by more than one, nor, but in the step that returns to the command, is there more than one
transaction. How a run is cut into steps is the model's choice (log entry 3). -/
def Obligations.PlaybackIsEntryByEntry : Prop :=
  ∀ (s : State) (r : TableRef) (tbl : RegisterTable), s.accepting = true → recordWf s.params = true → s.bus = none →
    tableOf s.params r = some tbl → let k := playSteps tbl.entries (s.starts r)
    (r = .prelude → exec .probe s = .next (s.starts r)) ∧
    (∀ m, r = .mode (resolve s.params m) → exec (.configure m) s = .next (s.starts r)) ∧
    core.run k (s.starts r) = .next (playReturned (playFrom tbl.entries (s.starts r))) ∧
    ∀ j, j < k → ∃ u w, core.run j (s.starts r) = .next u ∧ step u = .next w ∧ u.busy = true ∧ u.seqState ≠ .idle ∧
      w.seqPc.toNat ≤ u.seqPc.toNat + 1 ∧ (j + 1 < k → w.draws ≤ u.draws + 1)

/-- R97: two CONFIGUREs of one mode, one after the other, that both end OK, append the same events. -/
def Obligations.ConfigureTwiceSameEvents : Prop :=
  ∀ (s s' t t' u : State) (m : Byte) (j k : Nat), s.accepting = true → recordWf s.params = true → s.bus = none →
    exec (.configure m) s = .next s' → endsIn s' j t → t.status = okCode →
    exec (.configure m) t = .next t' → endsIn t' k u → u.status = okCode →
    ∃ es, t.events = s.events ++ es ∧ u.events = t.events ++ es

/-- R87: a mode of P_MODES resolves to itself and any other to P_DEFAULT_MODE; resolution never fails: the result is a mode,
with a table; and CONFIGURE of an unknown mode does exactly what CONFIGURE of P_DEFAULT_MODE does. -/
def Obligations.UnknownModePlaysDefault : Prop :=
  ∀ (s : State) (m : Byte), recordWf s.params = true →
    (m ∈ modes s.params → resolve s.params m = m) ∧
    (∃ tbl, tableOf s.params (.mode (resolve s.params m)) = some tbl) ∧
    (m ∉ modes s.params → resolve s.params m = s.params.defaultMode ∧
      exec (.configure m) s = exec (.configure s.params.defaultMode) s)

/-! ## The capture state machine (42_capture_fsm.md) -/

/-- R106: the length function, on every three bytes: the rule's own expression, and the number it is, in which bit 7 of l3
does not count. -/
def Obligations.FifoLengthIsTwentyThreeBits : Prop :=
  ∀ l1 l2 l3 : Byte,
    (fifoLength l1 l2 l3).toNat = ((l3.toNat &&& 0x7F) <<< 16 ||| l2.toNat <<< 8 ||| l1.toNat) &&& 0x7FFFFF ∧
    (fifoLength l1 l2 l3).toNat = l3.toNat % 128 * 65536 + l2.toNat * 256 + l1.toNat ∧
    (fifoLength l1 l2 l3).toNat ≤ 0x7FFFFF ∧ fifoLength l1 l2 (l3 ||| 0x80) = fifoLength l1 l2 l3

/-- R101: with SELFTEST_OK, PROBE_OK or CFG_VALID at 0, CAPTURE ends in NOT_READY with no transaction and no other register
changed; with all three at 1 the gate passes: no CAPTURE ends in NOT_READY. -/
def Obligations.CaptureGateRefuses : Prop :=
  ∀ s : State, s.accepting = true → recordWf s.params = true →
    (¬ (s.selftestOk = true ∧ s.probeOk = true ∧ s.cfgValid = true) →
      exec .capture s = .next { s with reply := .none, status := notReady, resultLen := 0, resultData := 0 }) ∧
    (s.selftestOk = true ∧ s.probeOk = true ∧ s.cfgValid = true →
      ∃ t, exec .capture s = .next t ∧ (t.busy = false → t.status ≠ notReady))

/-- R100 to R110, R113: CAPTURE of a ready block whose transactions all answer `Ok`, whose first poll reads capture-done set
and whose length fits: it ends OK in one instruction, whatever the record's options. That an empty frame in push mode logs an
empty OUT event is the model's reading (log entry 11). -/
def Obligations.CaptureCompletes : Prop :=
  ∀ s : State, s.accepting = true → recordWf s.params = true → s.gateOpen = true → s.bus = none →
    s.buf.wf = true → s.obuf.wf = true → let i := pollIndex s
    s.allOk (i + if s.params.continuous then 6 else 5) = true →
    captureDone s.params (s.answerByte i 0) = true → lengthFits s.params (lengthAt s (i + 1)) →
    ∃ t, exec .capture s = .next t ∧ captureLeaves s t (i + 1) ∧ t.pollCnt = 0 ∧
      t.events = s.events ++ startEvents s ++ finishEvents s (s.answerByte i 0) (i + 1)

/-- R104, R105: CAPTURE whose first poll reads capture-done clear. With no limit or one above 1 it stays in CAPTURING, BUSY,
with the next poll waiting in the transport unit; with a limit of 1 it aborts: CAPTURE_STALL, CFSM IDLE, POLL_CNT 0.
How a run is cut into steps is the model's choice (log entry 3). -/
def Obligations.ClearPollKeepsCapturing : Prop :=
  ∀ s : State, s.accepting = true → recordWf s.params = true → s.gateOpen = true → let i := pollIndex s
    s.allOk (i + 1) = true → captureDone s.params (s.answerByte i 0) = false →
    ∃ t, exec .capture s = .next t ∧
      t.events = s.events ++ startEvents s ++ [.dbRd (s.params.regTrig.setWidth 7) (s.answerByte i 0)] ∧
      (s.params.pollLimit ≠ some 1 →
        t = { s with log := t.log, answers := s.answers.drop (i + 1), draws := s.draws + (i + 1), reply := t.reply,
                     csN := true, busy := true, cfsm := .capturing,
                     pollCnt := if s.params.pollLimit = none then 0 else 1, bus := some (pollFrame s.params) }) ∧
      (s.params.pollLimit = some 1 →
        t = { s with log := t.log, answers := s.answers.drop (i + 1), draws := s.draws + (i + 1), reply := t.reply,
                     csN := true, cfsm := .idle, pollCnt := 0, status := captureStall, resultLen := 0, resultData := 0 })

/-- R104, R107 to R110, R113: the poll that reads capture-done set completes a polling capture, in that one step.
How a run is cut into steps is the model's choice (log entry 3). That an empty frame in push mode logs an empty OUT event is
the model's reading (log entry 11). -/
def Obligations.DonePollCompletesCapture : Prop :=
  ∀ s : State, polling s → s.buf.wf = true → s.obuf.wf = true →
    s.allOk (if s.params.continuous then 6 else 5) = true → captureDone s.params (s.answerByte 0 0) = true →
    lengthFits s.params (lengthAt s 1) →
    ∃ t, step s = .next t ∧ captureLeaves s t 1 ∧ t.pollCnt = s.pollCnt ∧
      t.events = s.events ++ finishEvents s (s.answerByte 0 0) 1

/-- R105: with a poll limit `k`, the `k`-th poll that reads capture-done clear aborts: CAPTURE_STALL, CFSM IDLE, POLL_CNT 0.
How a run is cut into steps is the model's choice (log entry 3). -/
def Obligations.PollLimitStalls : Prop :=
  ∀ (s : State) (k : Nat), polling s → s.params.pollLimit = some k → s.saysOk 0 = true →
    captureDone s.params (s.answerByte 0 0) = false → ∃ t, step s = .next t ∧
      t.events = s.events ++ [.dbRd (s.params.regTrig.setWidth 7) (s.answerByte 0 0)] ∧
      (k ≤ s.pollCnt + 1 →
        t = { s with log := t.log, answers := t.answers, draws := t.draws, reply := t.reply, csN := true, bus := none,
                     busy := false, cfsm := .idle, pollCnt := 0, status := captureStall, resultLen := 0,
                     resultData := 0 }) ∧
      (s.pollCnt + 1 < k →
        t = { s with log := t.log, answers := t.answers, draws := t.draws, reply := t.reply, csN := true,
                     pollCnt := s.pollCnt + 1 })

/-- R104, R112, R163: with no poll limit, as long as every poll reads capture-done clear, a polling capture polls on: after
any number of steps it is still BUSY in CAPTURING, one read of the trigger-status register the further for each step.
How a run is cut into steps is the model's choice (log entry 3). -/
def Obligations.UnboundedPollingNeverEnds : Prop :=
  ∀ (s : State) (k : Nat), polling s → s.params.pollLimit = none → s.allOk k = true →
    (∀ j, j < k → captureDone s.params (s.answerByte j 0) = false) →
    ∃ t, core.run k s = .next t ∧ polling t ∧ t.params = s.params ∧ t.pollCnt = s.pollCnt ∧ t.buf = s.buf ∧ t.out = s.out ∧
      t.events = s.events ++ (List.range k).map fun j => .dbRd (s.params.regTrig.setWidth 7) (s.answerByte j 0)

/-- R10, R11, R112, R132: a command whose first answer other than `Ok` is no outcome never ends: it stays as it is for ever,
unless the host breaks its duty. So a CAPTURE, in its own instruction and in a later poll's step (T1, T2, the poll, a length
read, the burst or the re-clear), a PROBE (a write of its prelude or a read) and a CONFIGURE: BUSY stays 1, no later
transaction follows, the result registers and flags are unchanged. (SELFTEST, DBURST and the other raw commands: their own
statements.) How a run is cut into steps is the model's choice (log entry 3); that a burst of no bytes logs an empty OUT event
in push mode is its reading (log entry 11). -/
def Obligations.StuckCommandNeverEnds : Prop :=
  (∀ (s : State) (k : Nat), recordWf s.params = true → s.clear = true → s.busy = true → s.reply = .never →
    core.run k s = .next s) ∧
  (∀ (s : State) (j : Nat), s.accepting = true → recordWf s.params = true → s.gateOpen = true →
    let i := pollIndex s; let len := lengthAt s (i + 1)
    j < (startTransactions s ++ finishTransactions s.params len).length → s.allOk j = true → s.saysNothing j = true →
    (i < j → captureDone s.params (s.answerByte i 0) = true) → (i + 4 ≤ j → lengthFits s.params len) →
    ∃ t, exec .capture s = .next t ∧ hangs s t j ∧ t.events = s.events ++ eventsBefore s (startEvents s) j) ∧
  (∀ (s : State) (j : Nat), polling s → let len := lengthAt s 1
    j < (finishTransactions s.params len).length → s.allOk j = true → s.saysNothing j = true →
    (0 < j → captureDone s.params (s.answerByte 0 0) = true) → (4 ≤ j → lengthFits s.params len) →
    ∃ t, step s = .next t ∧ hangs s t j ∧ t.events = s.events ++ eventsBefore s [] j) ∧
  (∀ (s : State) (j : Nat), s.accepting = true → recordWf s.params = true → s.bus = none →
    let p := s.params; let ws := writes p.probePrelude; let k := ws.length
    j < k + 2 → s.allOk j = true → s.saysNothing j = true →
    ∃ n t, core.run n (s.starts .prelude) = .next t ∧ hangs s t j ∧
      t.events = s.events ++ playEvents p .prelude (ws.take j) 0 ++
        (if j = k + 1 then [.cbRd p.idHAddr (s.answerByte k 0)] else [])) ∧
  ∀ (s : State) (m : Byte) (tbl : RegisterTable) (j : Nat), s.accepting = true → recordWf s.params = true →
    s.bus = none → tableOf s.params (.mode m) = some tbl → j < (writes tbl).length → s.allOk j = true →
    s.saysNothing j = true →
    ∃ n t, core.run n (s.starts (.mode m)) = .next t ∧ hangs s t j ∧
      t.events = s.events ++ playEvents s.params (.mode m) ((writes tbl).take j) 0

/-- R108: a frame longer than BUF is refused whole, by CAPTURE whose first poll is done and by the later poll that is done:
CAPACITY_ERROR after the length reads, nothing drained, LEN kept, CFSM IDLE. How a run is cut into steps is the model's
choice (log entry 3). -/
def Obligations.OverlongFrameRefused : Prop :=
  (∀ s : State, s.accepting = true → recordWf s.params = true → s.gateOpen = true → s.params.push = false →
    let i := pollIndex s
    s.allOk (i + 4) = true → captureDone s.params (s.answerByte i 0) = true →
    s.params.cap < (lengthAt s (i + 1)).toNat →
    ∃ t, exec .capture s = .next t ∧ frameRefused s t (startEvents s) capacityError) ∧
  ∀ s : State, polling s → s.params.push = false → s.allOk 4 = true → captureDone s.params (s.answerByte 0 0) = true →
    s.params.cap < (lengthAt s 1).toNat →
    ∃ t, step s = .next t ∧ frameRefused { s with bus := none } t [] capacityError

/-- R108: in raw mode a frame shorter than the mosaic is refused, by CAPTURE whose first poll is done and by the later poll that
is done: FRAME_SIZE_ERROR, nothing drained, LEN kept, CFSM IDLE. How a run is cut into steps is the model's choice (log
entry 3). -/
def Obligations.ShortFrameRefused : Prop :=
  (∀ s : State, s.accepting = true → recordWf s.params = true → s.gateOpen = true → s.params.raw = true →
    let i := pollIndex s
    s.allOk (i + 4) = true → captureDone s.params (s.answerByte i 0) = true →
    (lengthAt s (i + 1)).toNat < s.params.n * s.params.n →
    ∃ t, exec .capture s = .next t ∧ frameRefused s t (startEvents s) frameSizeError) ∧
  ∀ s : State, polling s → s.params.raw = true → s.allOk 4 = true → captureDone s.params (s.answerByte 0 0) = true →
    (lengthAt s 1).toNat < s.params.n * s.params.n →
    ∃ t, step s = .next t ∧ frameRefused { s with bus := none } t [] frameSizeError

/-- R100 to R111, R136, R139: the first transaction of a CAPTURE to answer `Err` (T1, T2, the poll, a length read, the burst or
the re-clear) gives BUS_ERROR, in CAPTURE itself and in a later poll's step: no later transaction, CFSM IDLE, POLL_CNT 0, LEN
and LEN_VALID kept unless all three length reads succeeded, BUF unchanged from LEN on. How a run is cut into steps is the
model's choice (log entry 3); that a burst of no bytes logs an empty OUT event in push mode is its reading (log entry 11). -/
def Obligations.CaptureBusError : Prop :=
  (∀ (s : State) (j : Nat) (x : Transaction), s.accepting = true → recordWf s.params = true → s.gateOpen = true →
    s.buf.wf = true → let i := pollIndex s; let len := lengthAt s (i + 1)
    (startTransactions s ++ finishTransactions s.params len)[j]? = some x → s.allOk j = true → s.saysErr j = true →
    (i < j → captureDone s.params (s.answerByte i 0) = true) → (i + 4 ≤ j → lengthFits s.params len) →
    ∃ t, exec .capture s = .next t ∧ captureFails s t (startEvents s) j x) ∧
  ∀ (s : State) (j : Nat) (x : Transaction), polling s → s.buf.wf = true → let len := lengthAt s 1
    (finishTransactions s.params len)[j]? = some x → s.allOk j = true → s.saysErr j = true →
    (0 < j → captureDone s.params (s.answerByte 0 0) = true) → (4 ≤ j → lengthFits s.params len) →
    ∃ t, step s = .next t ∧ captureFails { s with bus := none } t [] j x

/-- R111, R139, R141: a CAPTURE past its gate that ends in any failure, in its own instruction or in a later poll's step, leaves
CFSM IDLE and POLL_CNT 0 and reports BUS_ERROR, CAPTURE_STALL, CAPACITY_ERROR or FRAME_SIZE_ERROR, with length and data 0.
Which of the four: `CaptureBusError`, `PollLimitStalls`, `ClearPollKeepsCapturing`, `OverlongFrameRefused`,
`ShortFrameRefused`. -/
def Obligations.CaptureFailureReturnsToIdle : Prop :=
  ∀ s t : State,
    (s.accepting = true ∧ recordWf s.params = true ∧ s.gateOpen = true ∧ exec .capture s = .next t) ∨
      (polling s ∧ step s = .next t) →
    t.busy = false → t.status ≠ okCode →
    t.cfsm = .idle ∧ t.pollCnt = 0 ∧ t.resultLen = 0 ∧ t.resultData = 0 ∧
    (t.status = busError ∨ t.status = captureStall ∨ t.status = capacityError ∨ t.status = frameSizeError)

/-- R100, R110, R113: what CAPTURE never changes, in its own instruction or in a later poll's step: the three flags, MODE and the
sequencer; OBUF in a block that is not raw; BUF in push mode; OUT in one that is not. -/
def Obligations.CaptureFrame : Prop :=
  ∀ s t : State, exec .capture s = .next t ∨ (polling s ∧ step s = .next t) →
    t.selftestOk = s.selftestOk ∧ t.probeOk = s.probeOk ∧ t.cfgValid = s.cfgValid ∧ t.mode = s.mode ∧
    t.seqState = s.seqState ∧ t.seqPc = s.seqPc ∧ t.seqTbl = s.seqTbl ∧ t.params = s.params ∧
    (s.params.raw = false → t.obuf = s.obuf) ∧ (s.params.push = true → t.buf = s.buf) ∧
    (s.params.push = false → t.out = s.out)

/-! ## Whole-machine rules over the instructions -/

/-- R99, R21, R23: no instruction but CAPTURE changes CFSM, POLL_CNT, LEN or LEN_VALID; and while a command runs no step does but
one that takes the poll of a capture. -/
def Obligations.OnlyCaptureMovesCfsm : Prop :=
  (∀ (i : Instr) (s t : State), i ≠ .capture → exec i s = .next t →
    t.cfsm = s.cfsm ∧ t.pollCnt = s.pollCnt ∧ t.len = s.len ∧ t.lenValid = s.lenValid) ∧
  ∀ s t : State, s.busy = true → s.bus = none ∨ s.cfsm ≠ .capturing → step s = .next t →
    t.cfsm = s.cfsm ∧ t.pollCnt = s.pollCnt ∧ t.len = s.len ∧ t.lenValid = s.lenValid

/-- R24, R96, R116, R137: only SELFTEST writes SELFTEST_OK. PROBE_OK is written only where the playback of a prelude returns to
its PROBE, CFG_VALID and MODE only where that of a mode's table returns to its CONFIGURE. That `exec` of no instruction, PROBE
and CONFIGURE included, writes these three rests on the model's cut of a run into steps (log entry 3): the step that ends the
playback writes them, for the command that started it. -/
def Obligations.FlagsWrittenOnlyByTheirCommand : Prop :=
  (∀ (i : Instr) (s t : State), exec i s = .next t →
    (i ≠ .selftest → t.selftestOk = s.selftestOk) ∧ t.probeOk = s.probeOk ∧ t.cfgValid = s.cfgValid ∧ t.mode = s.mode) ∧
  ∀ s t : State, step s = .next t →
    (s.busy = true → t.selftestOk = s.selftestOk) ∧
    (s.seqState = .idle ∨ s.seqTbl ≠ .prelude → t.probeOk = s.probeOk) ∧
    (s.seqState = .idle ∨ s.seqTbl = .prelude → t.cfgValid = s.cfgValid ∧ t.mode = s.mode)

/-- R130, R135, R136: a host command that ends, in its own instruction or in a later step, reports one code of the table, and
length 0 unless the code is OK; one that has not ended has written no result register. -/
def Obligations.EndedCommandReportsOneStatus : Prop :=
  ∀ s t : State,
    (∃ i, isHostCommand i = true ∧ s.accepting = true ∧ exec i s = .next t) ∨ (s.busy = true ∧ step s = .next t) →
    (t.busy = false → t.status.toNat ≤ 9 ∧ (t.status ≠ okCode → t.resultLen = 0)) ∧
    (t.busy = true → t.status = s.status ∧ t.resultLen = s.resultLen ∧ t.resultData = s.resultData)

/-- R127: a host command issued while BUSY = 1 is recorded as BUSY_VIOLATION, and nothing else of the block changes; the
next step stops. -/
def Obligations.CommandWhileBusyStopsBlock : Prop :=
  ∀ (i : Instr) (s : State), isHostCommand i = true → recordWf s.params = true → s.fault = [] → s.busy = true →
    ∃ t, exec i s = .next t ∧ t = { s with fault := [.busyViolation], reply := t.reply } ∧
      step t = .fault .busyViolation

/-- R127, R112: a host command that comes while BUSY = 1 stops the block wherever it stands, before its next poll, entry, end of
a settle wait or end of a table, or where it is stuck: BUSY_VIOLATION, the action does not take place, no response. One that
comes after a command's last transaction stops it before its response; here CREAD. The moment at which the command lands is
the model's choice (log entry 6). -/
def Obligations.EarlyCommandStopsBlock : Prop :=
  (∀ (s : State) (bytes : List Byte) (rest : List HostMove), recordWf s.params = true → s.Inv → s.fault = [] →
    s.busy = true → s.host = .command bytes (some 0) :: rest →
    step s = .next { s with fault := [.busyViolation], host := rest, bus := none, reply := .never }) ∧
  ∀ (s : State) (a : CbAddr) (bytes : List Byte) (rest : List HostMove), s.fault = [] → s.busy = false →
    s.host = .command bytes (some 2) :: rest → s.saysOk 0 = true → ∃ t, exec (.cread a) s = .next t ∧
      t = { s with busy := true, fault := [.busyViolation], host := rest, log := t.log, answers := s.answers.tail,
                   draws := s.draws + 1, reply := .never } ∧
      t.events = s.events ++ [.cbRd a (s.answerByte 0 0)]

/-! ## Reconstruction (44_reconstruct.md) -/

/-- R118, R120, R121, R125: RECONSTRUCT writes each OBUF byte r*T + c with the mosaic byte of the closed form, leaves every
other OBUF byte and every other register, and ends OK with length T*T; with a BUF smaller than the mosaic it is
BAD_ARGUMENT. -/
def Obligations.ReconstructPixels : Prop :=
  ∀ s : State, s.accepting = true → recordWf s.params = true → s.obuf.wf = true → let p := s.params
    (p.cap < p.n * p.n →
      exec .reconstruct s = .next { s with reply := .none, status := badArgument, resultLen := 0, resultData := 0 }) ∧
    (p.n * p.n ≤ p.cap → ∃ t, exec .reconstruct s = .next t ∧
      t = { s with reply := t.reply, obuf := t.obuf, status := okCode, resultLen := BitVec.ofNat 23 (p.t * p.t),
                   resultData := 0 } ∧
      (let o := (p.n / 2 - p.t) / 2
       ∀ r c, r < p.t → c < p.t →
        t.obuf.read (r * p.t + c) = s.buf.read ((r + o) * p.n + (2 * (c + o) + (r + o + 1) % 2))) ∧
      ∀ x, p.t * p.t ≤ x → t.obuf.read x = s.obuf.read x)

/-- R122: on a well-formed record every BUF index reconstruction reads lies in [0, N*N), and below P*N: its row stays below
P, its column below N. So reconstruction never reads outside a BUF of at least N*N bytes. -/
def Obligations.ReconstructStaysInMosaic : Prop :=
  ∀ (p : Params) (r c : Nat), recordWf p = true → r < p.t → c < p.t →
    let o := cropOffset p; let side := p.n / 2
    sourceIndex p r c < p.n * p.n ∧ sourceIndex p r c < side * p.n ∧
    r + o ≤ p.t - 1 + o ∧ p.t - 1 + o < side ∧
    2 * (c + o) + 1 ≤ 2 * (p.t - 1 + o) + 1 ∧ 2 * (p.t - 1 + o) + 1 = p.t + side - 1 ∧ p.t + side - 1 ≤ p.n - 1 ∧
    (p.n * p.n ≤ p.cap → sourceIndex p r c < p.cap)

/-! ## The host interface (45_host_interface.md) -/

/-- R27, R131: STATE changes nothing but the response, whose data holds each field at its bits and 0 at bits 31 to 17, and
whose length is LEN where LEN_VALID. -/
def Obligations.StateWordFields : Prop :=
  ∀ s : State, s.accepting = true → ∃ t, exec .state s = .next t ∧
    t = { s with reply := t.reply, status := okCode, resultLen := if s.lenValid then s.len else 0,
                 resultData := t.resultData } ∧
    (t.resultData.extractLsb' 0 3).toNat =
      (match s.cfsm with | .idle => 0 | .cleared => 1 | .capturing => 2 | .done => 3 | .draining => 4) ∧
    (t.resultData.extractLsb' 3 2).toNat = (match s.seqState with | .idle => 0 | .run => 1 | .settle => 2) ∧
    t.resultData.getLsbD 5 = s.selftestOk ∧ t.resultData.getLsbD 6 = s.probeOk ∧ t.resultData.getLsbD 7 = s.cfgValid ∧
    t.resultData.extractLsb' 8 8 = s.mode ∧ t.resultData.getLsbD 16 = s.lenValid ∧
    t.resultData.extractLsb' 17 15 = 0

/-- R129: an illegal command changes nothing except the result registers. -/
def Obligations.IllegalCommandChangesOnlyResult : Prop :=
  ∀ (bytes : List Byte) (s : State), s.accepting = true →
    exec (.hostIllegal bytes) s = .next { s with reply := .none, status := illegalCommand, resultLen := 0, resultData := 0 }
end

