-- ==== Sys2Proof/Laws/Record.lean ====
section
/-! SUPPORT. What a well-formed parameter record gives (R7, R86), item by item, and what follows from it. -/

namespace Sys2Proof.Machine

/-- The items of R7, as `recordWf` checks them. -/
structure RecordFacts (p : Params) : Prop where
  addrW : p.addrW = match p.variant with | .sensor8 => 8 | .sensor16 => 16
  defaultMode : p.defaultMode ∈ modes p
  modeCode : ∀ m ∈ modes p, m ≠ 0xFF
  nodup : (modes p).Nodup
  tables : ∀ e ∈ p.tables, tableWf p.variant e.2 = true
  prelude : tableWf p.variant p.probePrelude = true
  settle : ∀ mark ∈ p.settle, settleMarkWf p mark = true
  regs : ∀ a ∈ [p.regFifo, p.regTrig, p.regLen1, p.regLen2, p.regLen3, p.regScratch], a.toNat ≤ 0x7F
  capDone : p.capDone ≠ 0
  side : p.n % 2 = 0 ∧ 2 ≤ p.n
  crop : 1 ≤ p.t ∧ p.t ≤ p.n / 2 ∧ (p.n / 2 - p.t) % 2 = 0
  cropSize : p.t * p.t < 2 ^ 23
  capSize : p.cap < 2 ^ 23
  rawCap : p.raw = true → p.n * p.n ≤ p.cap
  rawPush : ¬ (p.raw = true ∧ p.push = true)
  pollLimit : ∀ k, p.pollLimit = some k → 1 ≤ k
  idHAddr : addrFits p p.idHAddr = true
  idLAddr : addrFits p p.idLAddr = true

theorem recordFacts {p : Params} (h : recordWf p = true) : RecordFacts p := by
  simp only [recordWf, bridgeMapWf, List.all_cons, List.all_nil, id, Bool.and_true, Bool.and_eq_true, List.all_eq_true, List.contains_iff_mem, beq_iff_eq, bne_iff_ne, ne_eq,
    decide_eq_true_eq, Bool.or_eq_true, Bool.not_eq_true', Bool.and_eq_false_iff] at h
  obtain ⟨h1, h2, h3, h4, h5, h6, h7, h8, h9, h10, h11, h12, h13, h14, h15, h16, h17, h18⟩ := h
  refine ⟨h1, h2, h3, h4, h5, h6, h7, by simpa using h8, h9, h10, h11, h12, h13, fun hr => ?_, fun hr => ?_, fun k hk => ?_, h17, h18⟩
  · rcases h14 with h | h
    · rw [hr] at h; cases h
    · exact h
  · rcases h15 with h | h <;> simp_all
  · rw [hk] at h16; simpa using h16

/-- `P_ADDR_W` is 8 or 16. -/
theorem RecordFacts.width {p : Params} (h : RecordFacts p) : p.addrW = 8 ∨ p.addrW = 16 := by
  have := h.addrW
  split at this <;> simp [this]

/-- Every table a name stands for is well formed (R86). -/
theorem RecordFacts.tableOf {p : Params} (h : RecordFacts p) {r : TableRef} {t : RegisterTable}
    (ht : tableOf p r = some t) : tableWf p.variant t = true := by
  cases r with
  | mode m =>
    obtain ⟨a, b, hab, -⟩ := List.lookup_eq_some_iff.mp ht
    exact h.tables (m, t) (by rw [hab]; simp)
  | prelude =>
    injection ht with ht
    exact ht ▸ h.prelude

theorem playable_of_tableWf {v : Variant} {t : RegisterTable} (h : tableWf v t = true) : playable t = true := by
  simp only [tableWf, Bool.and_eq_true] at h
  exact h.1

/-- A mode of P_MODES has a table (R28). -/
theorem lookup_of_mem {p : Params} {m : Byte} (h : m ∈ modes p) : ∃ t, tableOf p (.mode m) = some t := by
  simp only [modes, List.mem_map, Prod.exists] at h
  obtain ⟨a, b, hab, rfl⟩ := h
  cases hl : p.tables.lookup a with
  | some t => exact ⟨t, hl⟩
  | none => simp [List.lookup_eq_none_iff] at hl; exact absurd rfl (hl _ _ hab)

/-- The resolved mode is a mode (R87). -/
theorem RecordFacts.resolve_mem {p : Params} (h : RecordFacts p) (m : Byte) : resolve p m ∈ modes p := by
  unfold resolve
  split
  · assumption
  · exact h.defaultMode

/-- On a well-formed record whose BUF holds the mosaic, reconstruction stays in BUF (R51, R122). -/
theorem RecordFacts.reconstructInRange {p : Params} (h : RecordFacts p) (hcap : p.n * p.n ≤ p.cap) :
    reconstructInRange p = true := by
  obtain ⟨hn, hn2⟩ := h.side
  obtain ⟨ht1, ht2, hpar⟩ := h.crop
  have hrow : p.t - 1 + cropOffset p + 1 ≤ planeSide p := by unfold cropOffset planeSide; omega
  have hcol : 2 * (p.t - 1 + cropOffset p) + 1 < p.n := by unfold cropOffset planeSide; omega
  have h1 := Nat.mul_le_mul_right p.n hrow
  have h2 : planeSide p * p.n ≤ p.n * p.n := Nat.mul_le_mul_right _ (by unfold planeSide; omega)
  simp only [Sys2Proof.Machine.reconstructInRange, Bool.or_eq_true, decide_eq_true_eq]
  right
  simp only [Nat.add_mul, Nat.one_mul] at h1 ⊢
  omega

/-- A raw block's BUF holds the mosaic, so its reconstruction stays in BUF (R7 item 10, R113). -/
theorem RecordFacts.rawInRange {p : Params} (h : RecordFacts p) :
    (p.raw && !Sys2Proof.Machine.reconstructInRange p) = false := by
  cases hr : p.raw with
  | false => rfl
  | true => simp [h.reconstructInRange (h.rawCap hr)]

end Sys2Proof.Machine
end

