-- ==== Sys2Proof/Laws/State.lean ====
section
/-! SUPPORT. What each named update of State leaves in each field. -/

namespace Sys2Proof.Machine

@[simp] theorem State.emit_params (s : State) (es : List Event) : (s.emit es).params = s.params := rfl
@[simp] theorem State.emit_busy (s : State) (es : List Event) : (s.emit es).busy = s.busy := rfl
@[simp] theorem State.emit_fault (s : State) (es : List Event) : (s.emit es).fault = s.fault := rfl
@[simp] theorem State.emit_cfsm (s : State) (es : List Event) : (s.emit es).cfsm = s.cfsm := rfl
@[simp] theorem State.emit_seqState (s : State) (es : List Event) : (s.emit es).seqState = s.seqState := rfl
@[simp] theorem State.emit_seqPc (s : State) (es : List Event) : (s.emit es).seqPc = s.seqPc := rfl
@[simp] theorem State.emit_seqTbl (s : State) (es : List Event) : (s.emit es).seqTbl = s.seqTbl := rfl
@[simp] theorem State.emit_mode (s : State) (es : List Event) : (s.emit es).mode = s.mode := rfl
@[simp] theorem State.emit_len (s : State) (es : List Event) : (s.emit es).len = s.len := rfl
@[simp] theorem State.emit_lenValid (s : State) (es : List Event) : (s.emit es).lenValid = s.lenValid := rfl
@[simp] theorem State.emit_drainIdx (s : State) (es : List Event) : (s.emit es).drainIdx = s.drainIdx := rfl
@[simp] theorem State.emit_pollCnt (s : State) (es : List Event) : (s.emit es).pollCnt = s.pollCnt := rfl
@[simp] theorem State.emit_selftestOk (s : State) (es : List Event) : (s.emit es).selftestOk = s.selftestOk := rfl
@[simp] theorem State.emit_probeOk (s : State) (es : List Event) : (s.emit es).probeOk = s.probeOk := rfl
@[simp] theorem State.emit_cfgValid (s : State) (es : List Event) : (s.emit es).cfgValid = s.cfgValid := rfl
@[simp] theorem State.emit_status (s : State) (es : List Event) : (s.emit es).status = s.status := rfl
@[simp] theorem State.emit_resultLen (s : State) (es : List Event) : (s.emit es).resultLen = s.resultLen := rfl
@[simp] theorem State.emit_resultData (s : State) (es : List Event) : (s.emit es).resultData = s.resultData := rfl
@[simp] theorem State.emit_csN (s : State) (es : List Event) : (s.emit es).csN = s.csN := rfl
@[simp] theorem State.emit_buf (s : State) (es : List Event) : (s.emit es).buf = s.buf := rfl
@[simp] theorem State.emit_obuf (s : State) (es : List Event) : (s.emit es).obuf = s.obuf := rfl
@[simp] theorem State.emit_out (s : State) (es : List Event) : (s.emit es).out = s.out := rfl
@[simp] theorem State.emit_log (s : State) (es : List Event) : (s.emit es).log = s.log ++ es := rfl
@[simp] theorem State.emit_host (s : State) (es : List Event) : (s.emit es).host = s.host := rfl
@[simp] theorem State.emit_answers (s : State) (es : List Event) : (s.emit es).answers = s.answers := rfl
@[simp] theorem State.emit_draws (s : State) (es : List Event) : (s.emit es).draws = s.draws := rfl
@[simp] theorem State.emit_reply (s : State) (es : List Event) : (s.emit es).reply = s.reply := rfl
@[simp] theorem State.emit_bus (s : State) (es : List Event) : (s.emit es).bus = s.bus := rfl

@[simp] theorem State.outWrite_params (s : State) (bs : List Byte) : (s.outWrite bs).params = s.params := rfl
@[simp] theorem State.outWrite_busy (s : State) (bs : List Byte) : (s.outWrite bs).busy = s.busy := rfl
@[simp] theorem State.outWrite_fault (s : State) (bs : List Byte) : (s.outWrite bs).fault = s.fault := rfl
@[simp] theorem State.outWrite_cfsm (s : State) (bs : List Byte) : (s.outWrite bs).cfsm = s.cfsm := rfl
@[simp] theorem State.outWrite_seqState (s : State) (bs : List Byte) : (s.outWrite bs).seqState = s.seqState := rfl
@[simp] theorem State.outWrite_seqPc (s : State) (bs : List Byte) : (s.outWrite bs).seqPc = s.seqPc := rfl
@[simp] theorem State.outWrite_seqTbl (s : State) (bs : List Byte) : (s.outWrite bs).seqTbl = s.seqTbl := rfl
@[simp] theorem State.outWrite_mode (s : State) (bs : List Byte) : (s.outWrite bs).mode = s.mode := rfl
@[simp] theorem State.outWrite_len (s : State) (bs : List Byte) : (s.outWrite bs).len = s.len := rfl
@[simp] theorem State.outWrite_lenValid (s : State) (bs : List Byte) : (s.outWrite bs).lenValid = s.lenValid := rfl
@[simp] theorem State.outWrite_drainIdx (s : State) (bs : List Byte) : (s.outWrite bs).drainIdx = s.drainIdx := rfl
@[simp] theorem State.outWrite_pollCnt (s : State) (bs : List Byte) : (s.outWrite bs).pollCnt = s.pollCnt := rfl
@[simp] theorem State.outWrite_selftestOk (s : State) (bs : List Byte) : (s.outWrite bs).selftestOk = s.selftestOk := rfl
@[simp] theorem State.outWrite_probeOk (s : State) (bs : List Byte) : (s.outWrite bs).probeOk = s.probeOk := rfl
@[simp] theorem State.outWrite_cfgValid (s : State) (bs : List Byte) : (s.outWrite bs).cfgValid = s.cfgValid := rfl
@[simp] theorem State.outWrite_status (s : State) (bs : List Byte) : (s.outWrite bs).status = s.status := rfl
@[simp] theorem State.outWrite_resultLen (s : State) (bs : List Byte) : (s.outWrite bs).resultLen = s.resultLen := rfl
@[simp] theorem State.outWrite_resultData (s : State) (bs : List Byte) : (s.outWrite bs).resultData = s.resultData := rfl
@[simp] theorem State.outWrite_csN (s : State) (bs : List Byte) : (s.outWrite bs).csN = s.csN := rfl
@[simp] theorem State.outWrite_buf (s : State) (bs : List Byte) : (s.outWrite bs).buf = s.buf := rfl
@[simp] theorem State.outWrite_obuf (s : State) (bs : List Byte) : (s.outWrite bs).obuf = s.obuf := rfl
@[simp] theorem State.outWrite_out (s : State) (bs : List Byte) : (s.outWrite bs).out = s.out ++ bs := rfl
@[simp] theorem State.outWrite_log (s : State) (bs : List Byte) : (s.outWrite bs).log = s.log ++ [.out bs] := rfl
@[simp] theorem State.outWrite_host (s : State) (bs : List Byte) : (s.outWrite bs).host = s.host := rfl
@[simp] theorem State.outWrite_answers (s : State) (bs : List Byte) : (s.outWrite bs).answers = s.answers := rfl
@[simp] theorem State.outWrite_draws (s : State) (bs : List Byte) : (s.outWrite bs).draws = s.draws := rfl
@[simp] theorem State.outWrite_reply (s : State) (bs : List Byte) : (s.outWrite bs).reply = s.reply := rfl
@[simp] theorem State.outWrite_bus (s : State) (bs : List Byte) : (s.outWrite bs).bus = s.bus := rfl

@[simp] theorem State.returns_params (s : State) (r : Reply) : (s.returns r).params = s.params := rfl
@[simp] theorem State.returns_busy (s : State) (r : Reply) : (s.returns r).busy = s.busy := rfl
@[simp] theorem State.returns_fault (s : State) (r : Reply) : (s.returns r).fault = s.fault := rfl
@[simp] theorem State.returns_cfsm (s : State) (r : Reply) : (s.returns r).cfsm = s.cfsm := rfl
@[simp] theorem State.returns_seqState (s : State) (r : Reply) : (s.returns r).seqState = s.seqState := rfl
@[simp] theorem State.returns_seqPc (s : State) (r : Reply) : (s.returns r).seqPc = s.seqPc := rfl
@[simp] theorem State.returns_seqTbl (s : State) (r : Reply) : (s.returns r).seqTbl = s.seqTbl := rfl
@[simp] theorem State.returns_mode (s : State) (r : Reply) : (s.returns r).mode = s.mode := rfl
@[simp] theorem State.returns_len (s : State) (r : Reply) : (s.returns r).len = s.len := rfl
@[simp] theorem State.returns_lenValid (s : State) (r : Reply) : (s.returns r).lenValid = s.lenValid := rfl
@[simp] theorem State.returns_drainIdx (s : State) (r : Reply) : (s.returns r).drainIdx = s.drainIdx := rfl
@[simp] theorem State.returns_pollCnt (s : State) (r : Reply) : (s.returns r).pollCnt = s.pollCnt := rfl
@[simp] theorem State.returns_selftestOk (s : State) (r : Reply) : (s.returns r).selftestOk = s.selftestOk := rfl
@[simp] theorem State.returns_probeOk (s : State) (r : Reply) : (s.returns r).probeOk = s.probeOk := rfl
@[simp] theorem State.returns_cfgValid (s : State) (r : Reply) : (s.returns r).cfgValid = s.cfgValid := rfl
@[simp] theorem State.returns_status (s : State) (r : Reply) : (s.returns r).status = s.status := rfl
@[simp] theorem State.returns_resultLen (s : State) (r : Reply) : (s.returns r).resultLen = s.resultLen := rfl
@[simp] theorem State.returns_resultData (s : State) (r : Reply) : (s.returns r).resultData = s.resultData := rfl
@[simp] theorem State.returns_csN (s : State) (r : Reply) : (s.returns r).csN = s.csN := rfl
@[simp] theorem State.returns_buf (s : State) (r : Reply) : (s.returns r).buf = s.buf := rfl
@[simp] theorem State.returns_obuf (s : State) (r : Reply) : (s.returns r).obuf = s.obuf := rfl
@[simp] theorem State.returns_out (s : State) (r : Reply) : (s.returns r).out = s.out := rfl
@[simp] theorem State.returns_log (s : State) (r : Reply) : (s.returns r).log = s.log := rfl
@[simp] theorem State.returns_host (s : State) (r : Reply) : (s.returns r).host = s.host := rfl
@[simp] theorem State.returns_answers (s : State) (r : Reply) : (s.returns r).answers = s.answers := rfl
@[simp] theorem State.returns_draws (s : State) (r : Reply) : (s.returns r).draws = s.draws := rfl
@[simp] theorem State.returns_reply (s : State) (r : Reply) : (s.returns r).reply = r := rfl
@[simp] theorem State.returns_bus (s : State) (r : Reply) : (s.returns r).bus = s.bus := rfl

@[simp] theorem State.drawn_params (s : State) : (s.drawn).params = s.params := rfl
@[simp] theorem State.drawn_busy (s : State) : (s.drawn).busy = s.busy := rfl
@[simp] theorem State.drawn_fault (s : State) : (s.drawn).fault = s.fault := rfl
@[simp] theorem State.drawn_cfsm (s : State) : (s.drawn).cfsm = s.cfsm := rfl
@[simp] theorem State.drawn_seqState (s : State) : (s.drawn).seqState = s.seqState := rfl
@[simp] theorem State.drawn_seqPc (s : State) : (s.drawn).seqPc = s.seqPc := rfl
@[simp] theorem State.drawn_seqTbl (s : State) : (s.drawn).seqTbl = s.seqTbl := rfl
@[simp] theorem State.drawn_mode (s : State) : (s.drawn).mode = s.mode := rfl
@[simp] theorem State.drawn_len (s : State) : (s.drawn).len = s.len := rfl
@[simp] theorem State.drawn_lenValid (s : State) : (s.drawn).lenValid = s.lenValid := rfl
@[simp] theorem State.drawn_drainIdx (s : State) : (s.drawn).drainIdx = s.drainIdx := rfl
@[simp] theorem State.drawn_pollCnt (s : State) : (s.drawn).pollCnt = s.pollCnt := rfl
@[simp] theorem State.drawn_selftestOk (s : State) : (s.drawn).selftestOk = s.selftestOk := rfl
@[simp] theorem State.drawn_probeOk (s : State) : (s.drawn).probeOk = s.probeOk := rfl
@[simp] theorem State.drawn_cfgValid (s : State) : (s.drawn).cfgValid = s.cfgValid := rfl
@[simp] theorem State.drawn_status (s : State) : (s.drawn).status = s.status := rfl
@[simp] theorem State.drawn_resultLen (s : State) : (s.drawn).resultLen = s.resultLen := rfl
@[simp] theorem State.drawn_resultData (s : State) : (s.drawn).resultData = s.resultData := rfl
@[simp] theorem State.drawn_csN (s : State) : (s.drawn).csN = s.csN := rfl
@[simp] theorem State.drawn_buf (s : State) : (s.drawn).buf = s.buf := rfl
@[simp] theorem State.drawn_obuf (s : State) : (s.drawn).obuf = s.obuf := rfl
@[simp] theorem State.drawn_out (s : State) : (s.drawn).out = s.out := rfl
@[simp] theorem State.drawn_log (s : State) : (s.drawn).log = s.log := rfl
@[simp] theorem State.drawn_host (s : State) : (s.drawn).host = s.host := rfl
@[simp] theorem State.drawn_answers (s : State) : (s.drawn).answers = s.answers.tail := rfl
@[simp] theorem State.drawn_draws (s : State) : (s.drawn).draws = s.draws + 1 := rfl
@[simp] theorem State.drawn_reply (s : State) : (s.drawn).reply = s.reply := rfl
@[simp] theorem State.drawn_bus (s : State) : (s.drawn).bus = s.bus := rfl

@[simp] theorem State.select_params (s : State) : (s.select).params = s.params := rfl
@[simp] theorem State.select_busy (s : State) : (s.select).busy = s.busy := rfl
@[simp] theorem State.select_fault (s : State) : (s.select).fault = s.fault := rfl
@[simp] theorem State.select_cfsm (s : State) : (s.select).cfsm = s.cfsm := rfl
@[simp] theorem State.select_seqState (s : State) : (s.select).seqState = s.seqState := rfl
@[simp] theorem State.select_seqPc (s : State) : (s.select).seqPc = s.seqPc := rfl
@[simp] theorem State.select_seqTbl (s : State) : (s.select).seqTbl = s.seqTbl := rfl
@[simp] theorem State.select_mode (s : State) : (s.select).mode = s.mode := rfl
@[simp] theorem State.select_len (s : State) : (s.select).len = s.len := rfl
@[simp] theorem State.select_lenValid (s : State) : (s.select).lenValid = s.lenValid := rfl
@[simp] theorem State.select_drainIdx (s : State) : (s.select).drainIdx = s.drainIdx := rfl
@[simp] theorem State.select_pollCnt (s : State) : (s.select).pollCnt = s.pollCnt := rfl
@[simp] theorem State.select_selftestOk (s : State) : (s.select).selftestOk = s.selftestOk := rfl
@[simp] theorem State.select_probeOk (s : State) : (s.select).probeOk = s.probeOk := rfl
@[simp] theorem State.select_cfgValid (s : State) : (s.select).cfgValid = s.cfgValid := rfl
@[simp] theorem State.select_status (s : State) : (s.select).status = s.status := rfl
@[simp] theorem State.select_resultLen (s : State) : (s.select).resultLen = s.resultLen := rfl
@[simp] theorem State.select_resultData (s : State) : (s.select).resultData = s.resultData := rfl
@[simp] theorem State.select_csN (s : State) : (s.select).csN = false := rfl
@[simp] theorem State.select_buf (s : State) : (s.select).buf = s.buf := rfl
@[simp] theorem State.select_obuf (s : State) : (s.select).obuf = s.obuf := rfl
@[simp] theorem State.select_out (s : State) : (s.select).out = s.out := rfl
@[simp] theorem State.select_log (s : State) : (s.select).log = s.log ++ [.wait .csSettle] := rfl
@[simp] theorem State.select_host (s : State) : (s.select).host = s.host := rfl
@[simp] theorem State.select_answers (s : State) : (s.select).answers = s.answers := rfl
@[simp] theorem State.select_draws (s : State) : (s.select).draws = s.draws := rfl
@[simp] theorem State.select_reply (s : State) : (s.select).reply = s.reply := rfl
@[simp] theorem State.select_bus (s : State) : (s.select).bus = s.bus := rfl

@[simp] theorem State.deselect_params (s : State) : (s.deselect).params = s.params := rfl
@[simp] theorem State.deselect_busy (s : State) : (s.deselect).busy = s.busy := rfl
@[simp] theorem State.deselect_fault (s : State) : (s.deselect).fault = s.fault := rfl
@[simp] theorem State.deselect_cfsm (s : State) : (s.deselect).cfsm = s.cfsm := rfl
@[simp] theorem State.deselect_seqState (s : State) : (s.deselect).seqState = s.seqState := rfl
@[simp] theorem State.deselect_seqPc (s : State) : (s.deselect).seqPc = s.seqPc := rfl
@[simp] theorem State.deselect_seqTbl (s : State) : (s.deselect).seqTbl = s.seqTbl := rfl
@[simp] theorem State.deselect_mode (s : State) : (s.deselect).mode = s.mode := rfl
@[simp] theorem State.deselect_len (s : State) : (s.deselect).len = s.len := rfl
@[simp] theorem State.deselect_lenValid (s : State) : (s.deselect).lenValid = s.lenValid := rfl
@[simp] theorem State.deselect_drainIdx (s : State) : (s.deselect).drainIdx = s.drainIdx := rfl
@[simp] theorem State.deselect_pollCnt (s : State) : (s.deselect).pollCnt = s.pollCnt := rfl
@[simp] theorem State.deselect_selftestOk (s : State) : (s.deselect).selftestOk = s.selftestOk := rfl
@[simp] theorem State.deselect_probeOk (s : State) : (s.deselect).probeOk = s.probeOk := rfl
@[simp] theorem State.deselect_cfgValid (s : State) : (s.deselect).cfgValid = s.cfgValid := rfl
@[simp] theorem State.deselect_status (s : State) : (s.deselect).status = s.status := rfl
@[simp] theorem State.deselect_resultLen (s : State) : (s.deselect).resultLen = s.resultLen := rfl
@[simp] theorem State.deselect_resultData (s : State) : (s.deselect).resultData = s.resultData := rfl
@[simp] theorem State.deselect_csN (s : State) : (s.deselect).csN = true := rfl
@[simp] theorem State.deselect_buf (s : State) : (s.deselect).buf = s.buf := rfl
@[simp] theorem State.deselect_obuf (s : State) : (s.deselect).obuf = s.obuf := rfl
@[simp] theorem State.deselect_out (s : State) : (s.deselect).out = s.out := rfl
@[simp] theorem State.deselect_log (s : State) : (s.deselect).log = s.log ++ [.wait .csSettle] := rfl
@[simp] theorem State.deselect_host (s : State) : (s.deselect).host = s.host := rfl
@[simp] theorem State.deselect_answers (s : State) : (s.deselect).answers = s.answers := rfl
@[simp] theorem State.deselect_draws (s : State) : (s.deselect).draws = s.draws := rfl
@[simp] theorem State.deselect_reply (s : State) : (s.deselect).reply = s.reply := rfl
@[simp] theorem State.deselect_bus (s : State) : (s.deselect).bus = s.bus := rfl

@[simp] theorem State.setResponse_params (s : State) (c : Byte) (l : Count) (d : BitVec 32) : (s.setResponse c l d).params = s.params := rfl
@[simp] theorem State.setResponse_busy (s : State) (c : Byte) (l : Count) (d : BitVec 32) : (s.setResponse c l d).busy = false := rfl
@[simp] theorem State.setResponse_fault (s : State) (c : Byte) (l : Count) (d : BitVec 32) : (s.setResponse c l d).fault = s.fault := rfl
@[simp] theorem State.setResponse_cfsm (s : State) (c : Byte) (l : Count) (d : BitVec 32) : (s.setResponse c l d).cfsm = s.cfsm := rfl
@[simp] theorem State.setResponse_seqState (s : State) (c : Byte) (l : Count) (d : BitVec 32) : (s.setResponse c l d).seqState = s.seqState := rfl
@[simp] theorem State.setResponse_seqPc (s : State) (c : Byte) (l : Count) (d : BitVec 32) : (s.setResponse c l d).seqPc = s.seqPc := rfl
@[simp] theorem State.setResponse_seqTbl (s : State) (c : Byte) (l : Count) (d : BitVec 32) : (s.setResponse c l d).seqTbl = s.seqTbl := rfl
@[simp] theorem State.setResponse_mode (s : State) (c : Byte) (l : Count) (d : BitVec 32) : (s.setResponse c l d).mode = s.mode := rfl
@[simp] theorem State.setResponse_len (s : State) (c : Byte) (l : Count) (d : BitVec 32) : (s.setResponse c l d).len = s.len := rfl
@[simp] theorem State.setResponse_lenValid (s : State) (c : Byte) (l : Count) (d : BitVec 32) : (s.setResponse c l d).lenValid = s.lenValid := rfl
@[simp] theorem State.setResponse_drainIdx (s : State) (c : Byte) (l : Count) (d : BitVec 32) : (s.setResponse c l d).drainIdx = s.drainIdx := rfl
@[simp] theorem State.setResponse_pollCnt (s : State) (c : Byte) (l : Count) (d : BitVec 32) : (s.setResponse c l d).pollCnt = s.pollCnt := rfl
@[simp] theorem State.setResponse_selftestOk (s : State) (c : Byte) (l : Count) (d : BitVec 32) : (s.setResponse c l d).selftestOk = s.selftestOk := rfl
@[simp] theorem State.setResponse_probeOk (s : State) (c : Byte) (l : Count) (d : BitVec 32) : (s.setResponse c l d).probeOk = s.probeOk := rfl
@[simp] theorem State.setResponse_cfgValid (s : State) (c : Byte) (l : Count) (d : BitVec 32) : (s.setResponse c l d).cfgValid = s.cfgValid := rfl
@[simp] theorem State.setResponse_status (s : State) (c : Byte) (l : Count) (d : BitVec 32) : (s.setResponse c l d).status = c := rfl
@[simp] theorem State.setResponse_resultLen (s : State) (c : Byte) (l : Count) (d : BitVec 32) : (s.setResponse c l d).resultLen = l := rfl
@[simp] theorem State.setResponse_resultData (s : State) (c : Byte) (l : Count) (d : BitVec 32) : (s.setResponse c l d).resultData = d := rfl
@[simp] theorem State.setResponse_csN (s : State) (c : Byte) (l : Count) (d : BitVec 32) : (s.setResponse c l d).csN = s.csN := rfl
@[simp] theorem State.setResponse_buf (s : State) (c : Byte) (l : Count) (d : BitVec 32) : (s.setResponse c l d).buf = s.buf := rfl
@[simp] theorem State.setResponse_obuf (s : State) (c : Byte) (l : Count) (d : BitVec 32) : (s.setResponse c l d).obuf = s.obuf := rfl
@[simp] theorem State.setResponse_out (s : State) (c : Byte) (l : Count) (d : BitVec 32) : (s.setResponse c l d).out = s.out := rfl
@[simp] theorem State.setResponse_log (s : State) (c : Byte) (l : Count) (d : BitVec 32) : (s.setResponse c l d).log = s.log := rfl
@[simp] theorem State.setResponse_host (s : State) (c : Byte) (l : Count) (d : BitVec 32) : (s.setResponse c l d).host = s.host := rfl
@[simp] theorem State.setResponse_answers (s : State) (c : Byte) (l : Count) (d : BitVec 32) : (s.setResponse c l d).answers = s.answers := rfl
@[simp] theorem State.setResponse_draws (s : State) (c : Byte) (l : Count) (d : BitVec 32) : (s.setResponse c l d).draws = s.draws := rfl
@[simp] theorem State.setResponse_reply (s : State) (c : Byte) (l : Count) (d : BitVec 32) : (s.setResponse c l d).reply = s.reply := rfl
@[simp] theorem State.setResponse_bus (s : State) (c : Byte) (l : Count) (d : BitVec 32) : (s.setResponse c l d).bus = s.bus := rfl

@[simp] theorem State.begin_params (s : State) : (s.begin).params = s.params := rfl
@[simp] theorem State.begin_busy (s : State) : (s.begin).busy = true := rfl
@[simp] theorem State.begin_fault (s : State) : (s.begin).fault = s.fault := rfl
@[simp] theorem State.begin_cfsm (s : State) : (s.begin).cfsm = s.cfsm := rfl
@[simp] theorem State.begin_seqState (s : State) : (s.begin).seqState = s.seqState := rfl
@[simp] theorem State.begin_seqPc (s : State) : (s.begin).seqPc = s.seqPc := rfl
@[simp] theorem State.begin_seqTbl (s : State) : (s.begin).seqTbl = s.seqTbl := rfl
@[simp] theorem State.begin_mode (s : State) : (s.begin).mode = s.mode := rfl
@[simp] theorem State.begin_len (s : State) : (s.begin).len = s.len := rfl
@[simp] theorem State.begin_lenValid (s : State) : (s.begin).lenValid = s.lenValid := rfl
@[simp] theorem State.begin_drainIdx (s : State) : (s.begin).drainIdx = s.drainIdx := rfl
@[simp] theorem State.begin_pollCnt (s : State) : (s.begin).pollCnt = s.pollCnt := rfl
@[simp] theorem State.begin_selftestOk (s : State) : (s.begin).selftestOk = s.selftestOk := rfl
@[simp] theorem State.begin_probeOk (s : State) : (s.begin).probeOk = s.probeOk := rfl
@[simp] theorem State.begin_cfgValid (s : State) : (s.begin).cfgValid = s.cfgValid := rfl
@[simp] theorem State.begin_status (s : State) : (s.begin).status = s.status := rfl
@[simp] theorem State.begin_resultLen (s : State) : (s.begin).resultLen = s.resultLen := rfl
@[simp] theorem State.begin_resultData (s : State) : (s.begin).resultData = s.resultData := rfl
@[simp] theorem State.begin_csN (s : State) : (s.begin).csN = s.csN := rfl
@[simp] theorem State.begin_buf (s : State) : (s.begin).buf = s.buf := rfl
@[simp] theorem State.begin_obuf (s : State) : (s.begin).obuf = s.obuf := rfl
@[simp] theorem State.begin_out (s : State) : (s.begin).out = s.out := rfl
@[simp] theorem State.begin_log (s : State) : (s.begin).log = s.log := rfl
@[simp] theorem State.begin_host (s : State) : (s.begin).host = s.host := rfl
@[simp] theorem State.begin_answers (s : State) : (s.begin).answers = s.answers := rfl
@[simp] theorem State.begin_draws (s : State) : (s.begin).draws = s.draws := rfl
@[simp] theorem State.begin_reply (s : State) : (s.begin).reply = .none := rfl
@[simp] theorem State.begin_bus (s : State) : (s.begin).bus = s.bus := rfl

@[simp] theorem State.busyViolation_params (s : State) : (s.busyViolation).params = s.params := rfl
@[simp] theorem State.busyViolation_busy (s : State) : (s.busyViolation).busy = s.busy := rfl
@[simp] theorem State.busyViolation_fault (s : State) : (s.busyViolation).fault = if s.fault.contains .busyViolation then s.fault else s.fault ++ [.busyViolation] := rfl
@[simp] theorem State.busyViolation_cfsm (s : State) : (s.busyViolation).cfsm = s.cfsm := rfl
@[simp] theorem State.busyViolation_seqState (s : State) : (s.busyViolation).seqState = s.seqState := rfl
@[simp] theorem State.busyViolation_seqPc (s : State) : (s.busyViolation).seqPc = s.seqPc := rfl
@[simp] theorem State.busyViolation_seqTbl (s : State) : (s.busyViolation).seqTbl = s.seqTbl := rfl
@[simp] theorem State.busyViolation_mode (s : State) : (s.busyViolation).mode = s.mode := rfl
@[simp] theorem State.busyViolation_len (s : State) : (s.busyViolation).len = s.len := rfl
@[simp] theorem State.busyViolation_lenValid (s : State) : (s.busyViolation).lenValid = s.lenValid := rfl
@[simp] theorem State.busyViolation_drainIdx (s : State) : (s.busyViolation).drainIdx = s.drainIdx := rfl
@[simp] theorem State.busyViolation_pollCnt (s : State) : (s.busyViolation).pollCnt = s.pollCnt := rfl
@[simp] theorem State.busyViolation_selftestOk (s : State) : (s.busyViolation).selftestOk = s.selftestOk := rfl
@[simp] theorem State.busyViolation_probeOk (s : State) : (s.busyViolation).probeOk = s.probeOk := rfl
@[simp] theorem State.busyViolation_cfgValid (s : State) : (s.busyViolation).cfgValid = s.cfgValid := rfl
@[simp] theorem State.busyViolation_status (s : State) : (s.busyViolation).status = s.status := rfl
@[simp] theorem State.busyViolation_resultLen (s : State) : (s.busyViolation).resultLen = s.resultLen := rfl
@[simp] theorem State.busyViolation_resultData (s : State) : (s.busyViolation).resultData = s.resultData := rfl
@[simp] theorem State.busyViolation_csN (s : State) : (s.busyViolation).csN = s.csN := rfl
@[simp] theorem State.busyViolation_buf (s : State) : (s.busyViolation).buf = s.buf := rfl
@[simp] theorem State.busyViolation_obuf (s : State) : (s.busyViolation).obuf = s.obuf := rfl
@[simp] theorem State.busyViolation_out (s : State) : (s.busyViolation).out = s.out := rfl
@[simp] theorem State.busyViolation_log (s : State) : (s.busyViolation).log = s.log := rfl
@[simp] theorem State.busyViolation_host (s : State) : (s.busyViolation).host = s.host := rfl
@[simp] theorem State.busyViolation_answers (s : State) : (s.busyViolation).answers = s.answers := rfl
@[simp] theorem State.busyViolation_draws (s : State) : (s.busyViolation).draws = s.draws := rfl
@[simp] theorem State.busyViolation_reply (s : State) : (s.busyViolation).reply = .never := rfl
@[simp] theorem State.busyViolation_bus (s : State) : (s.busyViolation).bus = s.bus := rfl

@[simp] theorem State.quiesce_params (s : State) : (s.quiesce).params = s.params := rfl
@[simp] theorem State.quiesce_busy (s : State) : (s.quiesce).busy = false := rfl
@[simp] theorem State.quiesce_fault (s : State) : (s.quiesce).fault = [] := rfl
@[simp] theorem State.quiesce_cfsm (s : State) : (s.quiesce).cfsm = s.cfsm := rfl
@[simp] theorem State.quiesce_seqState (s : State) : (s.quiesce).seqState = .idle := rfl
@[simp] theorem State.quiesce_seqPc (s : State) : (s.quiesce).seqPc = s.seqPc := rfl
@[simp] theorem State.quiesce_seqTbl (s : State) : (s.quiesce).seqTbl = s.seqTbl := rfl
@[simp] theorem State.quiesce_mode (s : State) : (s.quiesce).mode = s.mode := rfl
@[simp] theorem State.quiesce_len (s : State) : (s.quiesce).len = s.len := rfl
@[simp] theorem State.quiesce_lenValid (s : State) : (s.quiesce).lenValid = s.lenValid := rfl
@[simp] theorem State.quiesce_drainIdx (s : State) : (s.quiesce).drainIdx = s.drainIdx := rfl
@[simp] theorem State.quiesce_pollCnt (s : State) : (s.quiesce).pollCnt = s.pollCnt := rfl
@[simp] theorem State.quiesce_selftestOk (s : State) : (s.quiesce).selftestOk = s.selftestOk := rfl
@[simp] theorem State.quiesce_probeOk (s : State) : (s.quiesce).probeOk = s.probeOk := rfl
@[simp] theorem State.quiesce_cfgValid (s : State) : (s.quiesce).cfgValid = s.cfgValid := rfl
@[simp] theorem State.quiesce_status (s : State) : (s.quiesce).status = s.status := rfl
@[simp] theorem State.quiesce_resultLen (s : State) : (s.quiesce).resultLen = s.resultLen := rfl
@[simp] theorem State.quiesce_resultData (s : State) : (s.quiesce).resultData = s.resultData := rfl
@[simp] theorem State.quiesce_csN (s : State) : (s.quiesce).csN = s.csN := rfl
@[simp] theorem State.quiesce_buf (s : State) : (s.quiesce).buf = s.buf := rfl
@[simp] theorem State.quiesce_obuf (s : State) : (s.quiesce).obuf = s.obuf := rfl
@[simp] theorem State.quiesce_out (s : State) : (s.quiesce).out = s.out := rfl
@[simp] theorem State.quiesce_log (s : State) : (s.quiesce).log = s.log := rfl
@[simp] theorem State.quiesce_host (s : State) : (s.quiesce).host = s.host := rfl
@[simp] theorem State.quiesce_answers (s : State) : (s.quiesce).answers = s.answers := rfl
@[simp] theorem State.quiesce_draws (s : State) : (s.quiesce).draws = s.draws := rfl
@[simp] theorem State.quiesce_reply (s : State) : (s.quiesce).reply = .none := rfl
@[simp] theorem State.quiesce_bus (s : State) : (s.quiesce).bus = none := rfl

end Sys2Proof.Machine
end

