-- ==== Sys2Proof/Laws/Memory.lean ====
section
/-! SUPPORT. The byte memories: read after write, and that every write keeps the canonical form and the size. -/

namespace Sys2Proof.Machine

/-- A write is read back. -/
theorem Memory.read_write_same (m : Memory) (i : Nat) (v : Byte) (h : m.wf = true) : (m.write i v).read i = v := by
  induction m with
  | nil => simp only [Memory.write]; split <;> simp_all [Memory.read]
  | cons c m ih =>
    obtain ⟨j, w⟩ := c
    have hm : Memory.wf m = true := by
      simp only [Memory.wf, List.pairwise_cons, List.all_cons, Bool.and_eq_true, decide_eq_true_eq] at h ⊢
      exact ⟨h.1.2, h.2.2⟩
    have hlt : ∀ c ∈ m, j < c.1 := by
      simp only [Memory.wf, List.pairwise_cons, Bool.and_eq_true, decide_eq_true_eq] at h
      exact h.1.1
    have absent : ∀ m' : Memory, (∀ c ∈ m', i < c.1) → Memory.read m' i = Memory.unlisted := by
      intro m' hm'
      induction m' with
      | nil => rfl
      | cons c m' ih' =>
        have := hm' c (by simp)
        simp only [Memory.read, if_neg (show ¬ c.1 = i by omega)]
        exact ih' fun c hc => hm' c (by simp [hc])
    simp only [Memory.write]
    split
    · rename_i hij
      split
      · rename_i hv
        rw [absent _ (by intro c hc; rcases List.mem_cons.mp hc with rfl | hc
                         · exact hij
                         · exact lt_trans hij (hlt c hc)), hv]
      · simp [Memory.read]
    · split
      · rename_i hij
        split
        · rename_i hv; subst hij; rw [absent _ hlt, hv]
        · simp [Memory.read]
      · rename_i hij
        simp only [Memory.read, if_neg (show ¬ j = i by omega)]
        exact ih hm

/-- A write leaves every other byte alone. -/
theorem Memory.read_write_other (m : Memory) (i k : Nat) (v : Byte) (h : k ≠ i) : (m.write i v).read k = m.read k := by
  induction m with
  | nil => simp only [Memory.write]; split <;> simp [Memory.read, h.symm]
  | cons c m ih =>
    obtain ⟨j, w⟩ := c
    simp only [Memory.write]
    split
    · split
      · rfl
      · simp [Memory.read, h.symm]
    · split
      · rename_i hij
        have hjk : j ≠ k := by omega
        split
        · simp [Memory.read, hjk]
        · simp [Memory.read, h.symm, hjk]
      · simp only [Memory.read, ih]

theorem Memory.write_mem (m : Memory) (i : Nat) (v : Byte) : ∀ c ∈ m.write i v, c = (i, v) ∨ c ∈ m := by
  induction m with
  | nil => simp only [Memory.write]; split <;> simp
  | cons c m ih =>
    obtain ⟨j, w⟩ := c
    simp only [Memory.write]
    split
    · split <;> simp_all
    · split
      · split
        · intro c hc; simp [hc]
        · intro c hc; rcases List.mem_cons.mp hc with rfl | hc
          · simp
          · simp [hc]
      · intro c hc
        rcases List.mem_cons.mp hc with rfl | hc
        · simp
        · rcases ih c hc with h | h <;> simp [h]

/-- A write keeps the canonical form. -/
theorem Memory.write_wf (m : Memory) (i : Nat) (v : Byte) (h : m.wf = true) : (m.write i v).wf = true := by
  induction m with
  | nil => simp only [Memory.write]; split <;> simp_all [Memory.wf]
  | cons c m ih =>
    obtain ⟨j, w⟩ := c
    have hfull := h
    simp only [Memory.wf, List.pairwise_cons, List.all_cons, Bool.and_eq_true, decide_eq_true_eq] at h
    obtain ⟨⟨hlt, hp⟩, hw, ha⟩ := h
    have hm : Memory.wf m = true := by simp only [Memory.wf, Bool.and_eq_true, decide_eq_true_eq]; exact ⟨hp, ha⟩
    simp only [Memory.write]
    split
    · rename_i hij
      split
      · exact hfull
      · rename_i hv
        simp only [Memory.wf, List.pairwise_cons, List.all_cons, Bool.and_eq_true, decide_eq_true_eq]
        refine ⟨⟨?_, hlt, hp⟩, ?_, hw, ha⟩
        · intro c hc
          rcases List.mem_cons.mp hc with rfl | hc
          · exact hij
          · exact lt_trans hij (hlt c hc)
        · simpa using hv
    · split
      · rename_i hij
        split
        · exact hm
        · rename_i hv
          simp only [Memory.wf, List.pairwise_cons, List.all_cons, Bool.and_eq_true, decide_eq_true_eq]
          exact ⟨⟨fun c hc => hij ▸ hlt c hc, hp⟩, by simpa using hv, ha⟩
      · have := ih hm
        simp only [Memory.wf, Bool.and_eq_true, decide_eq_true_eq] at this
        simp only [Memory.wf, List.pairwise_cons, List.all_cons, Bool.and_eq_true, decide_eq_true_eq]
        refine ⟨⟨?_, this.1⟩, hw, this.2⟩
        intro c hc
        rcases Memory.write_mem m i v c hc with rfl | h
        · change j < i; omega
        · exact hlt c h

/-- A write inside a size keeps the memory inside it. -/
theorem Memory.write_within (m : Memory) (i size : Nat) (v : Byte) (h : m.within size = true) (hi : i < size) :
    (m.write i v).within size = true := by
  simp only [Memory.within, List.all_eq_true, decide_eq_true_eq] at h ⊢
  intro c hc
  rcases Memory.write_mem m i v c hc with rfl | hc
  · exact hi
  · exact h c hc

/-- Writing bytes keeps the canonical form. -/
theorem Memory.writeBytes_wf (bs : List Byte) : ∀ (m : Memory) (i : Nat), m.wf = true → (m.writeBytes i bs).wf = true := by
  induction bs with
  | nil => intro m i h; exact h
  | cons v bs ih => intro m i h; exact ih _ _ (Memory.write_wf m i v h)

/-- Writing bytes inside a size keeps the memory inside it. -/
theorem Memory.writeBytes_within (bs : List Byte) (size : Nat) : ∀ (m : Memory) (i : Nat), m.within size = true →
    i + bs.length ≤ size → (m.writeBytes i bs).within size = true := by
  induction bs with
  | nil => intro m i h _; exact h
  | cons v bs ih =>
    intro m i h hi
    simp only [List.length_cons] at hi
    exact ih _ _ (Memory.write_within m i size v h (by omega)) (by omega)

/-- Bytes outside the written range are as before (R80: indices `n` and above). -/
theorem Memory.read_writeBytes_other (bs : List Byte) : ∀ (m : Memory) (i k : Nat), (k < i ∨ i + bs.length ≤ k) →
    (m.writeBytes i bs).read k = m.read k := by
  induction bs with
  | nil => intro m i k _; rfl
  | cons v bs ih =>
    intro m i k h
    simp only [List.length_cons] at h
    simp only [Memory.writeBytes]
    rw [ih _ _ _ (by omega), Memory.read_write_other _ _ _ _ (by omega)]

/-- The bytes of the written range are the bytes written, in order (R47). -/
theorem Memory.read_writeBytes (bs : List Byte) : ∀ (m : Memory) (i k : Nat) (h : k < bs.length), m.wf = true →
    (m.writeBytes i bs).read (i + k) = bs[k] := by
  induction bs with
  | nil => intro m i k h; simp at h
  | cons v bs ih =>
    intro m i k h hm
    simp only [Memory.writeBytes]
    cases k with
    | zero =>
      rw [Memory.read_writeBytes_other _ _ _ _ (by omega)]
      exact Memory.read_write_same _ _ _ hm
    | succ k =>
      have := ih (m.write i v) (i + 1) k (by simpa using h) (Memory.write_wf _ _ _ hm)
      rw [show i + (k + 1) = i + 1 + k by omega, this]
      rfl

theorem Memory.nil_wf : Memory.wf [] = true := rfl

theorem Memory.nil_within (size : Nat) : Memory.within [] size = true := rfl

end Sys2Proof.Machine
end

