-- ==== Sys2Proof/Laws/Ops.lean ====
section
/-! SUPPORT. Once for each shared operation, everything it can do: the answers, the host's turn, the five transactions,
accepting a command. -/

namespace Sys2Proof.Machine

/-! ## The module's answers -/

/-- After one draw the answers move up by one. -/
theorem answer_after_draw {s t : State} (ha : t.answers = s.answers.tail) (hd : t.draws = s.draws + 1) (k : Nat) :
    t.answer k = s.answer (k + 1) := by
  simp only [State.answer, ha, hd, List.getElem?_tail, show s.draws + 1 + k = s.draws + (k + 1) by omega]

theorem answerByte_after_draw {s t : State} (ha : t.answers = s.answers.tail) (hd : t.draws = s.draws + 1) (k i : Nat) :
    t.answerByte k i = s.answerByte (k + 1) i := by
  simp only [State.answerByte, answer_after_draw ha hd, hd, show s.draws + 1 + k = s.draws + (k + 1) by omega]

theorem answerBytes_after_draw {s t : State} (ha : t.answers = s.answers.tail) (hd : t.draws = s.draws + 1) (k n : Nat) :
    t.answerBytes k n = s.answerBytes (k + 1) n := by
  simp only [State.answerBytes, List.map_inj_left]
  exact fun i _ => answerByte_after_draw ha hd k i

@[simp] theorem answerBytes_length (s : State) (k n : Nat) : (s.answerBytes k n).length = n := by
  simp [State.answerBytes]

theorem saysOk_after_draw {s t : State} (ha : t.answers = s.answers.tail) (hd : t.draws = s.draws + 1) (k : Nat) :
    t.saysOk k = s.saysOk (k + 1) := by simp only [State.saysOk, answer_after_draw ha hd]

theorem saysErr_after_draw {s t : State} (ha : t.answers = s.answers.tail) (hd : t.draws = s.draws + 1) (k : Nat) :
    t.saysErr k = s.saysErr (k + 1) := by simp only [State.saysErr, answer_after_draw ha hd]

/-- The answers do not depend on anything but the two fields that hold them. -/
theorem answer_congr {s t : State} (ha : t.answers = s.answers) (hd : t.draws = s.draws) : t.answer = s.answer := by
  funext k; simp only [State.answer, ha, hd]

theorem answerByte_congr {s t : State} (ha : t.answers = s.answers) (hd : t.draws = s.draws) :
    t.answerByte = s.answerByte := by
  funext k i; simp only [State.answerByte, answer_congr ha hd, hd]

/-! ## LOG without the chip-select waits -/

@[simp] theorem visible_append (a b : List Event) : visible (a ++ b) = visible a ++ visible b :=
  List.filter_append ..

/-! ## The host's turn -/

/-- A host that keeps its duty does nothing in its turn. -/
theorem hostTurn_quiet (s : State) (h : s.quiet = true) : s.hostTurn = s := by
  unfold State.quiet at h
  unfold State.hostTurn
  split <;> simp_all

/-- No command runs: the host does nothing in its turn. -/
theorem hostTurn_idle (s : State) (h : s.busy = false) : s.hostTurn = s := by
  unfold State.hostTurn
  split <;> simp_all

/-- The host's turn: nothing, a violation, or a count down (R127). -/
theorem hostTurn_cases (s : State) :
    s.hostTurn = s ∨
    (∃ bytes rest, s.busy = true ∧ s.host = .command bytes (some 0) :: rest ∧
      s.hostTurn = { s with host := rest }.busyViolation) ∨
    (∃ bytes k rest, s.busy = true ∧ s.host = .command bytes (some (k + 1)) :: rest ∧
      s.hostTurn = { s with host := .command bytes (some k) :: rest }) := by
  unfold State.hostTurn
  split
  · exact .inr (.inl ⟨_, _, ‹_›, ‹_›, rfl⟩)
  · exact .inr (.inr ⟨_, _, _, ‹_›, ‹_›, rfl⟩)
  · exact .inl rfl

theorem busyViolation_fault_ne (s : State) : s.busyViolation.fault ≠ [] := by
  rw [State.busyViolation_fault]
  split
  · intro h; rename_i hc; rw [h] at hc; simp at hc
  · simp

/-! ## One action of a running command -/

theorem clear_iff (s : State) : s.clear = true ↔ s.fault = [] ∧ s.quiet = true := by
  simp [State.clear, List.isEmpty_iff]

theorem accepting_iff (s : State) : s.accepting = true ↔ s.fault = [] ∧ s.busy = false ∧ s.quiet = true := by
  simp [State.accepting, List.isEmpty_iff, and_assoc]

/-- A block that is not faulted and whose host keeps its duty acts (R126). -/
theorem inTurn_clear (action : State → State) (s : State) (h : s.clear = true) : inTurn action s = action s := by
  obtain ⟨hf, hq⟩ := (clear_iff s).mp h
  simp only [inTurn, hostTurn_quiet s hq, if_pos hf]

/-- A block that is faulted, or whose host breaks in, does not act (R126, R127). -/
theorem inTurn_halted (action : State → State) (s : State) (h : s.hostTurn.fault ≠ []) :
    inTurn action s = s.hostTurn.returns .never := by
  simp only [inTurn, if_neg h]

/-- A command that ends leaves its response (R130). -/
theorem respond_clear (s : State) (c : Byte) (l : Count) (d : BitVec 32) (h : s.clear = true) :
    s.respond c l d = s.setResponse c l d := inTurn_clear _ s h

/-! ## One transaction -/

/-- In a block that may take a transaction, the answer decides (R10, R74). -/
theorem transaction_clear (start : State → State) (ok err : State → State → State) (s : State) (hf : s.fault = [])
    (hq : s.quiet = true) :
    transaction start ok err s =
      match (start s).answer 0 with
      | .ok _ => ok (start s) (start s).drawn
      | .err _ _ => (err (start s) (start s).drawn).returns .err
      | .noOutcome => (start s).drawn.returns .never :=
  inTurn_clear _ s ((clear_iff s).mpr ⟨hf, hq⟩)

/-- A transaction of a block that is faulted, or whose host breaks in, does not take place (R126, R127). -/
theorem transaction_halted (start : State → State) (ok err : State → State → State) (s : State)
    (h : s.hostTurn.fault ≠ []) : transaction start ok err s = s.hostTurn.returns .never := by
  rw [transaction, inTurn_halted _ s h]

theorem saysOk_iff (s : State) (k : Nat) : s.saysOk k = true ↔ ∃ bytes, s.answer k = .ok bytes := by
  unfold State.saysOk; split <;> simp_all

theorem saysErr_iff (s : State) (k : Nat) : s.saysErr k = true ↔ ∃ bytes n, s.answer k = .err bytes n := by
  unfold State.saysErr; split <;> simp_all

theorem saysNothing_iff (s : State) (k : Nat) : s.saysNothing k = true ↔ s.answer k = .noOutcome := by
  unfold State.saysNothing; split <;> simp_all

theorem transaction_ok (start : State → State) (ok err : State → State → State) (s : State) (hc : s.clear = true)
    (h : (start s).saysOk 0 = true) : transaction start ok err s = ok (start s) (start s).drawn := by
  obtain ⟨hf, hq⟩ := (clear_iff s).mp hc
  obtain ⟨b, hb⟩ := (saysOk_iff _ _).mp h
  rw [transaction_clear _ _ _ _ hf hq, hb]

theorem transaction_err (start : State → State) (ok err : State → State → State) (s : State) (hc : s.clear = true)
    (h : (start s).saysErr 0 = true) :
    transaction start ok err s = (err (start s) (start s).drawn).returns .err := by
  obtain ⟨hf, hq⟩ := (clear_iff s).mp hc
  obtain ⟨b, n, hb⟩ := (saysErr_iff _ _).mp h
  rw [transaction_clear _ _ _ _ hf hq, hb]

theorem transaction_nothing (start : State → State) (ok err : State → State → State) (s : State) (hc : s.clear = true)
    (h : (start s).saysNothing 0 = true) : transaction start ok err s = (start s).drawn.returns .never := by
  obtain ⟨hf, hq⟩ := (clear_iff s).mp hc
  rw [transaction_clear _ _ _ _ hf hq, (saysNothing_iff _ _).mp h]

/-! ## The five transactions -/

theorem cbWrite_ok (a : CbAddr) (v : Byte) (s : State) (hc : s.clear = true) (h : s.saysOk 0 = true) :
    cbWrite a v s = (s.drawn.emit [.cbWr a v]).returns (.ok 0) := transaction_ok _ _ _ s hc h

theorem cbWrite_err (a : CbAddr) (v : Byte) (s : State) (hc : s.clear = true) (h : s.saysErr 0 = true) :
    cbWrite a v s = (s.drawn.emit [.err (.cbWr a v)]).returns .err := transaction_err _ _ _ s hc h

theorem cbWrite_nothing (a : CbAddr) (v : Byte) (s : State) (hc : s.clear = true) (h : s.saysNothing 0 = true) :
    cbWrite a v s = s.drawn.returns .never := transaction_nothing _ _ _ s hc h

theorem cbRead_ok (a : CbAddr) (s : State) (hc : s.clear = true) (h : s.saysOk 0 = true) :
    cbRead a s = (s.drawn.emit [.cbRd a (s.answerByte 0 0)]).returns (.ok (s.answerByte 0 0)) :=
  transaction_ok _ _ _ s hc h

theorem cbRead_err (a : CbAddr) (s : State) (hc : s.clear = true) (h : s.saysErr 0 = true) :
    cbRead a s = (s.drawn.emit [.err (.cbRd a)]).returns .err := transaction_err _ _ _ s hc h

theorem cbRead_nothing (a : CbAddr) (s : State) (hc : s.clear = true) (h : s.saysNothing 0 = true) :
    cbRead a s = s.drawn.returns .never := transaction_nothing _ _ _ s hc h

theorem dbWrite_ok (a : DbAddr) (v : Byte) (s : State) (hc : s.clear = true) (h : s.saysOk 0 = true) :
    dbWrite a v s = (s.select.drawn.deselect.emit [.dbWr a v]).returns (.ok 0) := transaction_ok _ _ _ s hc h

theorem dbWrite_err (a : DbAddr) (v : Byte) (s : State) (hc : s.clear = true) (h : s.saysErr 0 = true) :
    dbWrite a v s = (s.select.drawn.deselect.emit [.err (.dbWr a v)]).returns .err := transaction_err _ _ _ s hc h

theorem dbWrite_nothing (a : DbAddr) (v : Byte) (s : State) (hc : s.clear = true) (h : s.saysNothing 0 = true) :
    dbWrite a v s = s.select.drawn.returns .never := transaction_nothing _ _ _ s hc h

theorem dbRead_ok (a : DbAddr) (s : State) (hc : s.clear = true) (h : s.saysOk 0 = true) :
    dbRead a s = (s.select.drawn.deselect.emit [.dbRd a (s.answerByte 0 0)]).returns (.ok (s.answerByte 0 0)) :=
  transaction_ok _ _ _ s hc h

theorem dbRead_err (a : DbAddr) (s : State) (hc : s.clear = true) (h : s.saysErr 0 = true) :
    dbRead a s = (s.select.drawn.deselect.emit [.err (.dbRd a)]).returns .err := transaction_err _ _ _ s hc h

theorem dbRead_nothing (a : DbAddr) (s : State) (hc : s.clear = true) (h : s.saysNothing 0 = true) :
    dbRead a s = s.select.drawn.returns .never := transaction_nothing _ _ _ s hc h

theorem dbBurst_ok (n : Count) (dst : BurstDst) (s : State) (hc : s.clear = true) (h : s.saysOk 0 = true) :
    dbBurst n dst s =
      ((({ s.select.drawn.deliver dst (s.answerBytes 0 n.toNat) with drainIdx := n } : State).deselect).emit
        [.dbBurst n (s.answerBytes 0 n.toNat)]).returns (.ok 0) := by
  have := transaction_ok (fun b => { b.select with drainIdx := 0 }) (fun b d =>
      let bytes := b.answerBytes 0 n.toNat
      ((({ d.deliver dst bytes with drainIdx := n } : State).deselect).emit [.dbBurst n bytes]).returns (.ok 0))
    (fun b d =>
      (({ d.deliver dst (b.burstDebris n.toNat dst) with drainIdx := b.burstProgress n } : State).deselect).emit
        [.err (.dbBurst n)]) s hc h
  rw [dbBurst, this]
  cases dst <;> rfl

theorem dbBurst_err (n : Count) (dst : BurstDst) (s : State) (hc : s.clear = true) (h : s.saysErr 0 = true) :
    dbBurst n dst s =
      ((({ s.select.drawn.deliver dst (s.burstDebris n.toNat dst) with
            drainIdx := s.burstProgress n } : State).deselect).emit [.err (.dbBurst n)]).returns .err := by
  have := transaction_err (fun b => { b.select with drainIdx := 0 }) (fun b d =>
      let bytes := b.answerBytes 0 n.toNat
      ((({ d.deliver dst bytes with drainIdx := n } : State).deselect).emit [.dbBurst n bytes]).returns (.ok 0))
    (fun b d =>
      (({ d.deliver dst (b.burstDebris n.toNat dst) with drainIdx := b.burstProgress n } : State).deselect).emit
        [.err (.dbBurst n)]) s hc h
  rw [dbBurst, this]
  cases dst <;> rfl

theorem dbBurst_nothing (n : Count) (dst : BurstDst) (s : State) (hc : s.clear = true) (h : s.saysNothing 0 = true) :
    dbBurst n dst s = ({ s.select.drawn with drainIdx := 0 } : State).returns .never :=
  transaction_nothing (fun b => { b.select with drainIdx := 0 }) _ _ s hc h

/-- The progress of a failed burst does not pass its length (R80). -/
theorem burstProgress_le (s : State) (n : Count) : (s.burstProgress n).toNat ≤ n.toNat := by
  unfold State.burstProgress
  have := n.isLt
  split
  · simp; omega
  · exact Nat.le_refl _

/-- A byte of a burst. -/
theorem answerBytes_getElem (s : State) (j n k : Nat) (h : k < n) :
    (s.answerBytes j n)[k]'(by simpa using h) = s.answerByte j k := by
  simp [State.answerBytes]

/-- The module's answer is of exactly one of the three kinds (R10). -/
theorem says_cases (s : State) (k : Nat) :
    (s.saysOk k = true ∧ s.saysErr k = false ∧ s.saysNothing k = false) ∨
    (s.saysOk k = false ∧ s.saysErr k = true ∧ s.saysNothing k = false) ∨
    (s.saysOk k = false ∧ s.saysErr k = false ∧ s.saysNothing k = true) := by
  unfold State.saysOk State.saysErr State.saysNothing
  cases s.answer k <;> simp

/-! ## Accepting a command -/

/-- A command is accepted by a block that takes it (R126). -/
theorem accept_accepting (c : State → Host.Outcome State Fault Refusal) (s : State) (h : s.accepting = true) :
    accept c s = c s.begin := by
  obtain ⟨hf, hb, hq⟩ := (accepting_iff s).mp h
  have hturn : s.begin.hostTurn = s.begin := hostTurn_quiet _ hq
  simp [accept, hf, hb, hturn]

/-- A busy block records BUSY_VIOLATION (R127). -/
theorem accept_busy (c : State → Host.Outcome State Fault Refusal) (s : State) (hf : s.fault = []) (hb : s.busy = true) :
    accept c s = .next s.busyViolation := by
  simp [accept, hf, hb]

/-- A faulted block takes nothing (R126). -/
theorem accept_faulted (c : State → Host.Outcome State Fault Refusal) (s : State) (hf : s.fault ≠ []) :
    accept c s = .fault .busyViolation := by
  simp [accept, hf]

/-- Everything accepting a command can do (R126, R127). -/
theorem accept_next {c : State → Host.Outcome State Fault Refusal} {s t : State} (h : accept c s = .next t) :
    s.fault = [] ∧
      ((s.busy = true ∧ t = s.busyViolation) ∨
       (s.busy = false ∧ s.begin.hostTurn.fault ≠ [] ∧ t = s.begin.hostTurn) ∨
       (s.busy = false ∧ s.begin.hostTurn.fault = [] ∧ c s.begin.hostTurn = .next t)) := by
  unfold accept at h
  split at h
  · refine ⟨‹_›, ?_⟩
    split at h
    · injection h with h; exact .inl ⟨‹_›, h.symm⟩
    · rename_i hb
      have hb : s.busy = false := by simpa using hb
      simp only at h
      split at h
      · exact .inr (.inr ⟨hb, ‹_›, h⟩)
      · injection h with h; exact .inr (.inl ⟨hb, ‹_›, h.symm⟩)
  · cases h

/-! ## What follows a transaction -/

@[simp] theorem onReply_ok (s : State) (v : Byte) (err : State → State) (ok : Byte → State → State)
    (h : s.reply = .ok v) : onReply s err ok = ok v s := by simp [onReply, h]

@[simp] theorem onReply_err (s : State) (err : State → State) (ok : Byte → State → State) (h : s.reply = .err) :
    onReply s err ok = err s := by simp [onReply, h]

@[simp] theorem onReply_never (s : State) (err : State → State) (ok : Byte → State → State) (h : s.reply = .never) :
    onReply s err ok = s := by simp [onReply, h]

end Sys2Proof.Machine
end

