-- ==== Sys2Proof/Laws/Run.lean ====
section
/-! SUPPORT. Running a command: what each transaction gives, written out as a state, when the module's answers are counted
from the state `base` in which the command was accepted. -/

namespace Sys2Proof.Machine

/-- `s` may take a transaction, and `k` answers have been drawn since `base`. -/
structure At (base : State) (k : Nat) (s : State) : Prop where
  answers : s.answers = base.answers.drop k
  draws : s.draws = base.draws + k
  fault : s.fault = []
  quiet : s.quiet = true

theorem At.clear {base s : State} {k : Nat} (h : At base k s) : s.clear = true := (clear_iff s).mpr ⟨h.fault, h.quiet⟩

theorem At.answer {base s : State} {k : Nat} (h : At base k s) (j : Nat) : s.answer j = base.answer (k + j) := by
  simp only [State.answer, h.answers, h.draws, List.getElem?_drop, Nat.add_assoc]

theorem At.answerByte {base s : State} {k : Nat} (h : At base k s) (j i : Nat) :
    s.answerByte j i = base.answerByte (k + j) i := by
  simp only [State.answerByte, h.answer, h.draws, Nat.add_assoc]

theorem At.answerBytes {base s : State} {k : Nat} (h : At base k s) (j n : Nat) :
    s.answerBytes j n = base.answerBytes (k + j) n := by
  simp only [State.answerBytes, List.map_inj_left]
  exact fun i _ => h.answerByte j i

theorem At.saysOk {base s : State} {k : Nat} (h : At base k s) (j : Nat) : s.saysOk j = base.saysOk (k + j) := by
  simp only [State.saysOk, h.answer]

theorem At.saysErr {base s : State} {k : Nat} (h : At base k s) (j : Nat) : s.saysErr j = base.saysErr (k + j) := by
  simp only [State.saysErr, h.answer]

theorem At.saysNothing {base s : State} {k : Nat} (h : At base k s) (j : Nat) :
    s.saysNothing j = base.saysNothing (k + j) := by
  simp only [State.saysNothing, h.answer]

/-- The state in which an accepted command starts. -/
theorem At.start {s : State} (h : s.accepting = true) : At s 0 s.begin := by
  obtain ⟨hf, _, hq⟩ := (accepting_iff s).mp h
  exact ⟨rfl, rfl, hf, hq⟩

/-- A state is its own start. -/
theorem At.self {s : State} (h : s.clear = true) : At s 0 s :=
  ⟨rfl, rfl, ((clear_iff s).mp h).1, ((clear_iff s).mp h).2⟩

theorem allOk_of_lt {s : State} {n k : Nat} (h : s.allOk n = true) (hk : k < n) : s.saysOk k = true := by
  simp only [State.allOk, List.all_eq_true, List.mem_range] at h
  exact h k hk

theorem drop_tail {α : Type} (l : List α) (k : Nat) : (l.drop k).tail = l.drop (k + 1) := by
  rw [List.tail_drop]

section
variable {base s : State} {k : Nat} (h : At base k s)
include h

theorem cbWrite_at_ok (a : CbAddr) (v : Byte) (ok : base.saysOk k = true) :
    cbWrite a v s =
      { s with log := s.log ++ [.cbWr a v], answers := base.answers.drop (k + 1), draws := base.draws + (k + 1),
               reply := .ok 0 } := by
  rw [cbWrite_ok a v s h.clear (by rw [h.saysOk]; exact ok)]
  simp only [State.drawn, State.emit, State.returns, h.answers, h.draws, drop_tail]
  rfl

theorem cbWrite_at_err (a : CbAddr) (v : Byte) (err : base.saysErr k = true) :
    cbWrite a v s =
      { s with log := s.log ++ [.err (.cbWr a v)], answers := base.answers.drop (k + 1), draws := base.draws + (k + 1),
               reply := .err } := by
  rw [cbWrite_err a v s h.clear (by rw [h.saysErr]; exact err)]
  simp only [State.drawn, State.emit, State.returns, h.answers, h.draws, drop_tail]
  rfl

theorem cbRead_at_ok (a : CbAddr) (ok : base.saysOk k = true) :
    cbRead a s =
      { s with log := s.log ++ [.cbRd a (base.answerByte k 0)], answers := base.answers.drop (k + 1),
               draws := base.draws + (k + 1), reply := .ok (base.answerByte k 0) } := by
  rw [cbRead_ok a s h.clear (by rw [h.saysOk]; exact ok), h.answerByte]
  simp only [State.drawn, State.emit, State.returns, h.answers, h.draws, drop_tail]
  rfl

theorem cbRead_at_err (a : CbAddr) (err : base.saysErr k = true) :
    cbRead a s =
      { s with log := s.log ++ [.err (.cbRd a)], answers := base.answers.drop (k + 1), draws := base.draws + (k + 1),
               reply := .err } := by
  rw [cbRead_err a s h.clear (by rw [h.saysErr]; exact err)]
  simp only [State.drawn, State.emit, State.returns, h.answers, h.draws, drop_tail]
  rfl

theorem dbWrite_at_ok (a : DbAddr) (v : Byte) (ok : base.saysOk k = true) :
    dbWrite a v s =
      { s with log := s.log ++ [.wait .csSettle] ++ [.wait .csSettle] ++ [.dbWr a v],
               answers := base.answers.drop (k + 1), draws := base.draws + (k + 1), reply := .ok 0, csN := true } := by
  rw [dbWrite_ok a v s h.clear (by rw [h.saysOk]; exact ok)]
  simp only [State.select, State.deselect, State.drawn, State.emit, State.returns, h.answers, h.draws, drop_tail]
  rfl

theorem dbWrite_at_err (a : DbAddr) (v : Byte) (err : base.saysErr k = true) :
    dbWrite a v s =
      { s with log := s.log ++ [.wait .csSettle] ++ [.wait .csSettle] ++ [.err (.dbWr a v)],
               answers := base.answers.drop (k + 1), draws := base.draws + (k + 1), reply := .err, csN := true } := by
  rw [dbWrite_err a v s h.clear (by rw [h.saysErr]; exact err)]
  simp only [State.select, State.deselect, State.drawn, State.emit, State.returns, h.answers, h.draws, drop_tail]
  rfl

theorem dbRead_at_ok (a : DbAddr) (ok : base.saysOk k = true) :
    dbRead a s =
      { s with log := s.log ++ [.wait .csSettle] ++ [.wait .csSettle] ++ [.dbRd a (base.answerByte k 0)],
               answers := base.answers.drop (k + 1), draws := base.draws + (k + 1),
               reply := .ok (base.answerByte k 0), csN := true } := by
  rw [dbRead_ok a s h.clear (by rw [h.saysOk]; exact ok), h.answerByte]
  simp only [State.select, State.deselect, State.drawn, State.emit, State.returns, h.answers, h.draws, drop_tail]
  rfl

theorem dbRead_at_err (a : DbAddr) (err : base.saysErr k = true) :
    dbRead a s =
      { s with log := s.log ++ [.wait .csSettle] ++ [.wait .csSettle] ++ [.err (.dbRd a)],
               answers := base.answers.drop (k + 1), draws := base.draws + (k + 1), reply := .err, csN := true } := by
  rw [dbRead_err a s h.clear (by rw [h.saysErr]; exact err)]
  simp only [State.select, State.deselect, State.drawn, State.emit, State.returns, h.answers, h.draws, drop_tail]
  rfl

theorem dbBurst_at_ok_buf (n : Count) (ok : base.saysOk k = true) :
    dbBurst n .buf s =
      { s with log := s.log ++ [.wait .csSettle] ++ [.wait .csSettle] ++ [.dbBurst n (base.answerBytes k n.toNat)],
               answers := base.answers.drop (k + 1), draws := base.draws + (k + 1), reply := .ok 0, csN := true,
               drainIdx := n, buf := s.buf.writeBytes 0 (base.answerBytes k n.toNat) } := by
  rw [dbBurst_ok n .buf s h.clear (by rw [h.saysOk]; exact ok), h.answerBytes]
  simp only [State.select, State.deselect, State.drawn, State.emit, State.returns, State.deliver, h.answers, h.draws,
    drop_tail]
  rfl

theorem dbBurst_at_ok_out (n : Count) (ok : base.saysOk k = true) :
    dbBurst n .out s =
      { s with log := s.log ++ [.wait .csSettle] ++ [.out (base.answerBytes k n.toNat)] ++ [.wait .csSettle]
                 ++ [.dbBurst n (base.answerBytes k n.toNat)],
               answers := base.answers.drop (k + 1), draws := base.draws + (k + 1), reply := .ok 0, csN := true,
               drainIdx := n, out := s.out ++ base.answerBytes k n.toNat } := by
  rw [dbBurst_ok n .out s h.clear (by rw [h.saysOk]; exact ok), h.answerBytes]
  simp only [State.select, State.deselect, State.drawn, State.emit, State.returns, State.deliver, State.outWrite,
    h.answers, h.draws, drop_tail]
  rfl

/-- A control-bus write without an outcome: the command goes no further (R10, R76). -/
theorem cbWrite_at_nothing (a : CbAddr) (v : Byte) (no : base.saysNothing k = true) :
    cbWrite a v s =
      { s with answers := base.answers.drop (k + 1), draws := base.draws + (k + 1), reply := .never } := by
  rw [cbWrite_nothing a v s h.clear (by rw [h.saysNothing]; exact no)]
  simp only [State.drawn, State.returns, h.answers, h.draws, drop_tail]
  rfl

theorem cbRead_at_nothing (a : CbAddr) (no : base.saysNothing k = true) :
    cbRead a s =
      { s with answers := base.answers.drop (k + 1), draws := base.draws + (k + 1), reply := .never } := by
  rw [cbRead_nothing a s h.clear (by rw [h.saysNothing]; exact no)]
  simp only [State.drawn, State.returns, h.answers, h.draws, drop_tail]
  rfl

theorem dbWrite_at_nothing (a : DbAddr) (v : Byte) (no : base.saysNothing k = true) :
    dbWrite a v s =
      { s with log := s.log ++ [.wait .csSettle], answers := base.answers.drop (k + 1), draws := base.draws + (k + 1),
               reply := .never, csN := false } := by
  rw [dbWrite_nothing a v s h.clear (by rw [h.saysNothing]; exact no)]
  simp only [State.select, State.drawn, State.returns, h.answers, h.draws, drop_tail]
  rfl

theorem dbRead_at_nothing (a : DbAddr) (no : base.saysNothing k = true) :
    dbRead a s =
      { s with log := s.log ++ [.wait .csSettle], answers := base.answers.drop (k + 1), draws := base.draws + (k + 1),
               reply := .never, csN := false } := by
  rw [dbRead_nothing a s h.clear (by rw [h.saysNothing]; exact no)]
  simp only [State.select, State.drawn, State.returns, h.answers, h.draws, drop_tail]
  rfl

theorem dbBurst_at_nothing (n : Count) (dst : BurstDst) (no : base.saysNothing k = true) :
    dbBurst n dst s =
      { s with log := s.log ++ [.wait .csSettle], answers := base.answers.drop (k + 1), draws := base.draws + (k + 1),
               reply := .never, csN := false, drainIdx := 0 } := by
  rw [dbBurst_nothing n dst s h.clear (by rw [h.saysNothing]; exact no)]
  simp only [State.select, State.drawn, State.returns, h.answers, h.draws, drop_tail]
  rfl

end

end Sys2Proof.Machine
end

