-- ==== Sys2Proof/Laws/Capture.lean ====
section
/-! SUPPORT. The stages of a capture whose transactions answer `Ok`: what each leaves, written out as a state, when the
module's answers are counted from the state `base`. -/

namespace Sys2Proof.Machine

/-- The cleanup of a failure in a block that acts (R111, R136). -/
theorem abort_clear (code : Byte) (s : State) (h : s.clear = true) :
    abort code s = { s with cfsm := .idle, pollCnt := 0, status := code, resultLen := 0, resultData := 0, busy := false } :=
  respond_clear _ code 0 0 h

/-- The push header in a block that acts (R110). -/
theorem pushHeader_clear (s : State) (h : s.clear = true) :
    pushHeader s = if s.params.push then s.outWrite [s.params.hdr0, s.params.hdr1] else s := by
  unfold pushHeader
  split
  · exact inTurn_clear _ s h
  · rfl

/-- Reconstruction in a block that acts (R121). -/
theorem reconstruct_clear (s : State) (h : s.clear = true) : reconstruct s = emitPixels s := inTurn_clear _ s h

section
variable {base s : State} {k : Nat} (h : At base k s)
include h

/-- A FIFO-control write (R102, R103, R109). -/
theorem fifoControl_at_ok (v : Byte) (ok : base.saysOk k = true) :
    fifoControl v s =
      { s with log := s.log ++ [.wait .csSettle, .wait .csSettle, .dbWr (dbAddr s.params.regFifo) v],
               answers := base.answers.drop (k + 1), draws := base.draws + (k + 1), reply := .ok 0, csN := true } := by
  rw [fifoControl, dbWrite_at_ok h _ _ ok]; simp

/-- The three length reads (R107). -/
theorem readLength_at_ok (ok : ∀ j, j < 3 → base.saysOk (k + j) = true) :
    readLength s = lengthChecks
      { s with log := s.log ++ [.wait .csSettle, .wait .csSettle, .dbRd (dbAddr s.params.regLen1) (base.answerByte k 0),
                 .wait .csSettle, .wait .csSettle, .dbRd (dbAddr s.params.regLen2) (base.answerByte (k + 1) 0),
                 .wait .csSettle, .wait .csSettle, .dbRd (dbAddr s.params.regLen3) (base.answerByte (k + 2) 0)],
               answers := base.answers.drop (k + 3), draws := base.draws + (k + 3),
               reply := .ok (base.answerByte (k + 2) 0), csN := true,
               len := lengthAt base k, lenValid := true } := by
  rw [readLength, dbRead_at_ok h _ (ok 0 (by omega))]
  simp only [onReply]
  rw [dbRead_at_ok (base := base) (k := k + 1) ?_ _ (ok 1 (by omega))]
  · simp only
    rw [dbRead_at_ok (base := base) (k := k + 2) ?_ _ (ok 2 (by omega))]
    · simp only [List.append_assoc, List.cons_append, List.nil_append]
      rfl
    · exact ⟨rfl, rfl, h.fault, h.quiet⟩
  · exact ⟨rfl, rfl, h.fault, h.quiet⟩

/-- The end of a continuous capture (R109). -/
theorem afterDrain_at_ok (ok : s.params.continuous = true → base.saysOk k = true) :
    afterDrain s = captureEnd
      { s with log := s.log ++ (if s.params.continuous then
                 [.wait .csSettle, .wait .csSettle, .dbWr (dbAddr s.params.regFifo) s.params.fifoClear] else []),
               answers := if s.params.continuous then base.answers.drop (k + 1) else s.answers,
               draws := if s.params.continuous then base.draws + (k + 1) else s.draws,
               reply := if s.params.continuous then .ok 0 else s.reply,
               csN := if s.params.continuous then true else s.csN,
               cfsm := if s.params.continuous then .cleared else .idle } := by
  unfold afterDrain
  cases hc : s.params.continuous
  · simp
  · simp only [if_true, fifoControl_at_ok h _ (ok hc), onReply]

end

end Sys2Proof.Machine
end

