-- ==== Sys2Proof/Laws/Commands.lean ====
section
/-! SUPPORT. Each host command in a block that accepts it: exec is the command's own course from the accepted state. -/

namespace Sys2Proof.Machine

section
variable {s : State} (h : s.accepting = true)
include h

theorem exec_selftest : exec .selftest s = .next (selftest s.begin) := by
  simp only [exec, execSelftest, accept_accepting _ s h]

/-- PROBE starts the playback of its prelude (R116). -/
theorem exec_probe : exec .probe s = .next (s.starts .prelude) := by
  simp only [exec, execProbe, accept_accepting _ s h]
  rfl

/-- CONFIGURE starts the playback of the resolved mode's table (R96). -/
theorem exec_configure (m : Byte) : exec (.configure m) s = .next (s.starts (.mode (resolve s.params m))) := by
  simp only [exec, execConfigure, accept_accepting _ s h]
  rfl

theorem exec_capture : exec .capture s =
    if s.params.raw && !reconstructInRange s.params then .fault .outOfRange else .next (capture s.begin) := by
  simp only [exec, execCapture, accept_accepting _ s h]
  rfl

theorem exec_reconstruct : exec .reconstruct s =
    if s.params.cap < s.params.n * s.params.n then .next (raise badArgument 0 s.begin)
    else if reconstructInRange s.params then .next (finish (pixelCount s.params) 0 (reconstruct s.begin))
    else .fault .outOfRange := by
  simp only [exec, execReconstruct, accept_accepting _ s h]
  rfl

theorem exec_state : exec .state s = .next (finish (if s.lenValid then s.len else 0) s.begin.word s.begin) := by
  simp only [exec, execState, accept_accepting _ s h]
  rfl

theorem exec_cread (a : CbAddr) : exec (.cread a) s =
    .next (onReply (cbRead a s.begin) (raise busError 0) fun v => finish 1 (byteData v)) := by
  simp only [exec, execCread, accept_accepting _ s h]

theorem exec_cwrite (a : CbAddr) (v : Byte) : exec (.cwrite a v) s =
    .next (onReply (cbWrite a v s.begin) (raise busError 0) fun _ => finish 0 0) := by
  simp only [exec, execCwrite, accept_accepting _ s h]

theorem exec_dread (a : Byte) : exec (.dread a) s =
    .next (if badDbAddr a then raise badArgument 0 s.begin
      else onReply (dbRead (dbAddr a) s.begin) (raise busError 0) fun v => finish 1 (byteData v)) := by
  simp only [exec, execDread, accept_accepting _ s h]

theorem exec_dwrite (a v : Byte) : exec (.dwrite a v) s =
    .next (if badDbAddr a then raise badArgument 0 s.begin
      else onReply (dbWrite (dbAddr a) v s.begin) (raise busError 0) fun _ => finish 0 0) := by
  simp only [exec, execDwrite, accept_accepting _ s h]

theorem exec_dburst (n : BitVec 24) : exec (.dburst n) s =
    .next (if badBurst s.params n then raise badArgument 0 s.begin
      else onReply (dbBurst (n.setWidth 23) .buf s.begin) (raise busError 0) fun _ => finish (n.setWidth 23) 0) := by
  simp only [exec, execDburst, accept_accepting _ s h]
  rfl

theorem exec_hostIllegal (bytes : List Byte) : exec (.hostIllegal bytes) s = .next (raise illegalCommand 0 s.begin) := by
  simp only [exec, execHostIllegal, accept_accepting _ s h]

end

/-- Every host command is its course behind `accept` (R126). -/
theorem hostCommand_accept (i : Instr) (h : isHostCommand i = true) : ∃ c, exec i = accept c := by
  cases i with
  | selftest => exact ⟨_, funext fun s => by rw [exec, execSelftest]⟩
  | probe => exact ⟨_, funext fun s => by rw [exec, execProbe]⟩
  | configure m => exact ⟨_, funext fun s => by rw [exec, execConfigure]⟩
  | capture => exact ⟨_, funext fun s => by rw [exec, execCapture]⟩
  | reconstruct => exact ⟨_, funext fun s => by rw [exec, execReconstruct]⟩
  | state => exact ⟨_, funext fun s => by rw [exec, execState]⟩
  | cread a => exact ⟨_, funext fun s => by rw [exec, execCread]⟩
  | cwrite a v => exact ⟨_, funext fun s => by rw [exec, execCwrite]⟩
  | dread a => exact ⟨_, funext fun s => by rw [exec, execDread]⟩
  | dwrite a v => exact ⟨_, funext fun s => by rw [exec, execDwrite]⟩
  | dburst n => exact ⟨_, funext fun s => by rw [exec, execDburst]⟩
  | hostIllegal b => exact ⟨_, funext fun s => by rw [exec, execHostIllegal]⟩
  | _ => simp [isHostCommand] at h

end Sys2Proof.Machine
end

