-- ==== Sys2Proof/Laws/Decode.lean ====
section
/-! SUPPORT. The fields of an encoding put together and taken apart: what a decoder pulls out is what the encoder put in. -/

namespace Sys2Proof

/-- A 16-bit address is its two bytes put together (R49). -/
theorem join_split (a : CbAddr) : joinAddr (addrHi a) (addrLo a) = a := by
  apply BitVec.eq_of_getLsbD_eq
  intro j hj
  refine (BitVec.getLsbD_append (x := addrHi a) (y := addrLo a)).trans ?_
  simp only [addrHi, addrLo]
  split <;> simp
  · omega
  · rw [show 8 + (j - 8) = j by omega]; simp; omega

/-- An 8-bit address is its one byte. -/
theorem short_split (a : CbAddr) (h : a.toNat < 256) : shortAddr (addrLo a) = a := by
  apply BitVec.eq_of_toNat_eq
  simp [shortAddr, addrLo]; omega

/-- A count is its three bytes put together (R69). -/
theorem joinCount_split (n : BitVec 24) : joinCount ((n >>> 16).setWidth 8) ((n >>> 8).setWidth 8) (n.setWidth 8) = n := by
  apply BitVec.eq_of_getLsbD_eq
  intro j hj
  refine (BitVec.getLsbD_append (x := (n >>> 16).setWidth 8 ++ (n >>> 8).setWidth 8) (y := n.setWidth 8)).trans ?_
  split
  · simp; omega
  · rw [BitVec.getLsbD_append]
    split <;> simp
    · rw [show 8 + (j - 8) = j by omega]; simp; omega
    · rw [show 16 + (j - 8 - 8) = j by omega]; simp; omega

/-- A TBL8 word that is no terminator gives back its address and its value (R64). -/
theorem splitTbl8_pair (a v : Byte) (h : ¬ (a = 0xFF ∧ v = 0xFF)) :
    splitTbl8 (a ++ v : BitVec 16) = some (a, v) := by
  have h1 : ((a ++ v : BitVec 16) >>> 8).setWidth 8 = a := by
    apply BitVec.eq_of_getLsbD_eq
    intro j hj
    simp only [BitVec.getLsbD_setWidth, BitVec.getLsbD_ushiftRight]
    erw [BitVec.getLsbD_append]
    simp [hj]
  have h2 : (a ++ v : BitVec 16).setWidth 8 = v := by
    apply BitVec.eq_of_getLsbD_eq
    intro j hj
    simp only [BitVec.getLsbD_setWidth]
    erw [BitVec.getLsbD_append]
    simp [hj]
  unfold splitTbl8
  rw [if_neg, h1, h2]
  intro he
  rw [he] at h1 h2
  exact h ⟨h1.symm, h2.symm⟩

/-- A TBL16 word gives back its address and its value (R65). -/
theorem splitTbl16_pair (a : CbAddr) (v : Byte) : splitTbl16 (a ++ v : BitVec 24) = (a, v) := by
  simp only [splitTbl16, Prod.mk.injEq]
  constructor <;> apply BitVec.eq_of_getLsbD_eq <;> intro j hj
  · simp only [BitVec.getLsbD_setWidth, BitVec.getLsbD_ushiftRight]
    erw [BitVec.getLsbD_append]
    simp [hj]
  · simp only [BitVec.getLsbD_setWidth]
    erw [BitVec.getLsbD_append]
    simp [hj]

/-- A list of bytes that is no legal command decodes to HOST_ILLEGAL, which keeps it (R71, R128). -/
theorem decodeHost_illegal (w : Nat) (b : List Byte) (h : legalCommand w b = false) :
    decodeHost w b = .hostIllegal b := by
  cases b with
  | nil => rfl
  | cons op xs =>
    unfold legalCommand hostOperands at h
    unfold decodeHost
    dsimp only at h ⊢
    by_cases hw : w = 8
    all_goals
      simp only [hw, if_true, if_false] at h ⊢
      split
      all_goals first | rfl | (exfalso; rename_i ho; simp [ho] at h)

end Sys2Proof
end

