-- ==== Sys2Proof/Laws/Frames.lean ====
section
/-! SUPPORT. Everything a bus transaction can change, whatever the host and the module do, and the same of an accepted
command's start. -/

namespace Sys2Proof.Machine

/-- What a bus transaction, or the host's turn before it, can change (R10, R47, R74 to R80, R126, R127). -/
structure Transacts (s t : State) : Prop where
  /-- Every other register is unchanged. -/
  frame : t = { s with fault := t.fault, host := t.host, log := t.log, answers := t.answers, draws := t.draws,
                       reply := t.reply, csN := t.csN, drainIdx := t.drainIdx, buf := t.buf, out := t.out }
  log : s.log <+: t.log
  out : s.out <+: t.out
  fault : ∀ r ∈ s.fault, r ∈ t.fault
  host : s.host.all (moveInRange s.params) = true → t.host.all (moveInRange s.params) = true
  /-- A fault leaves nothing to go on with. -/
  halted : t.fault ≠ [] → t.reply = .never
  /-- CS_N ends deselected but where the transaction has no outcome. -/
  select : s.csN = true → t.csN = true ∨ t.reply = .never
  replied : t.reply ≠ .none

theorem Transacts.params {s t : State} (h : Transacts s t) : t.params = s.params := by rw [h.frame]
theorem Transacts.busy {s t : State} (h : Transacts s t) : t.busy = s.busy := by rw [h.frame]
theorem Transacts.cfsm {s t : State} (h : Transacts s t) : t.cfsm = s.cfsm := by rw [h.frame]
theorem Transacts.seqState {s t : State} (h : Transacts s t) : t.seqState = s.seqState := by rw [h.frame]
theorem Transacts.seqPc {s t : State} (h : Transacts s t) : t.seqPc = s.seqPc := by rw [h.frame]
theorem Transacts.seqTbl {s t : State} (h : Transacts s t) : t.seqTbl = s.seqTbl := by rw [h.frame]
theorem Transacts.mode {s t : State} (h : Transacts s t) : t.mode = s.mode := by rw [h.frame]
theorem Transacts.len {s t : State} (h : Transacts s t) : t.len = s.len := by rw [h.frame]
theorem Transacts.lenValid {s t : State} (h : Transacts s t) : t.lenValid = s.lenValid := by rw [h.frame]
theorem Transacts.pollCnt {s t : State} (h : Transacts s t) : t.pollCnt = s.pollCnt := by rw [h.frame]
theorem Transacts.selftestOk {s t : State} (h : Transacts s t) : t.selftestOk = s.selftestOk := by rw [h.frame]
theorem Transacts.probeOk {s t : State} (h : Transacts s t) : t.probeOk = s.probeOk := by rw [h.frame]
theorem Transacts.cfgValid {s t : State} (h : Transacts s t) : t.cfgValid = s.cfgValid := by rw [h.frame]
theorem Transacts.status {s t : State} (h : Transacts s t) : t.status = s.status := by rw [h.frame]
theorem Transacts.resultLen {s t : State} (h : Transacts s t) : t.resultLen = s.resultLen := by rw [h.frame]
theorem Transacts.resultData {s t : State} (h : Transacts s t) : t.resultData = s.resultData := by rw [h.frame]
theorem Transacts.obuf {s t : State} (h : Transacts s t) : t.obuf = s.obuf := by rw [h.frame]
theorem Transacts.bus {s t : State} (h : Transacts s t) : t.bus = s.bus := by rw [h.frame]

/-- The host's turn changes FAULT, the host's moves and the reply, and nothing else. -/
theorem hostTurn_frame (s : State) :
    s.hostTurn = { s with fault := s.hostTurn.fault, host := s.hostTurn.host, reply := s.hostTurn.reply } ∧
    (∀ r ∈ s.fault, r ∈ s.hostTurn.fault) ∧
    (s.host.all (moveInRange s.params) = true → s.hostTurn.host.all (moveInRange s.params) = true) := by
  rcases hostTurn_cases s with h | ⟨bytes, rest, -, hh, h⟩ | ⟨bytes, k, rest, -, hh, h⟩ <;> rw [h]
  · simp
  · refine ⟨rfl, fun r hr => ?_, fun ha => ?_⟩
    · simp only [State.busyViolation_fault]; split
      · exact hr
      · exact List.mem_append_left _ hr
    · rw [hh, List.all_cons, Bool.and_eq_true] at ha; exact ha.2
  · refine ⟨rfl, fun r hr => hr, fun ha => ?_⟩
    rw [hh, List.all_cons, Bool.and_eq_true] at ha
    simpa [moveInRange] using ha.2

/-- Everything an action's turn can do (R126, R127): the action takes place, in a state in which only the host's moves have
counted down; or it does not, because FAULT is not empty. -/
theorem inTurn_cases (action : State → State) (s : State) :
    (∃ host, (s.host.all (moveInRange s.params) = true → host.all (moveInRange s.params) = true) ∧ s.fault = [] ∧
      inTurn action s = action { s with host := host }) ∨
    ∃ fault host, (s.host.all (moveInRange s.params) = true → host.all (moveInRange s.params) = true) ∧ fault ≠ [] ∧
      (∀ r ∈ s.fault, r ∈ fault) ∧
      inTurn action s = { s with fault := fault, host := host, reply := .never } := by
  obtain ⟨hf, hfa, hh⟩ := hostTurn_frame s
  by_cases h : s.hostTurn.fault = []
  · have he : s.fault = [] := List.eq_nil_iff_forall_not_mem.mpr fun r hr => by simpa [h] using hfa r hr
    refine .inl ⟨s.hostTurn.host, hh, he, ?_⟩
    simp only [inTurn, if_pos h]
    congr 1
    rcases hostTurn_cases s with e | ⟨bytes, rest, -, -, e⟩ | ⟨bytes, k, rest, -, -, e⟩
    · rw [e]
    · rw [e] at h; exact absurd h (busyViolation_fault_ne _)
    · rw [e]
  · refine .inr ⟨s.hostTurn.fault, s.hostTurn.host, hh, h, hfa, ?_⟩
    rw [inTurn_halted _ _ h, hf]
    rfl

/-- What the host's turn adds is part of a `Transacts`. -/
theorem transacts_of_turn {s t : State} (h : Transacts s.hostTurn t) : Transacts s t := by
  obtain ⟨hf, hfa, hh⟩ := hostTurn_frame s
  have hp : s.hostTurn.params = s.params := by rw [hf]
  refine ⟨?_, ?_, ?_, fun r hr => h.fault r (hfa r hr), fun hall => ?_, h.halted, ?_, h.replied⟩
  · have := h.frame; rw [hf] at this; exact this
  · have := h.log; rw [hf] at this; exact this
  · have := h.out; rw [hf] at this; exact this
  · have := h.host; rw [hp] at this; exact this (hh hall)
  · have := h.select; rw [hf] at this; exact this

/-- An action is a `Transacts` if it is one where it takes place. -/
theorem transacts_of_action {action : State → State} (s : State)
    (h : ∀ b : State, b.fault = [] → Transacts b (action b)) : Transacts s (inTurn action s) := by
  refine transacts_of_turn ?_
  by_cases hft : s.hostTurn.fault = []
  · simpa only [inTurn, if_pos hft] using h _ hft
  · rw [inTurn_halted _ _ hft]
    exact ⟨rfl, List.prefix_rfl, List.prefix_rfl, fun r hr => hr, fun ha => ha, fun _ => rfl, fun _ => .inr rfl, by simp⟩

/-- A transaction is a `Transacts` if it is one when it takes place, whatever the module answers. -/
theorem transacts_of_answer {start : State → State} {ok err : State → State → State} (s : State)
    (h : ∀ b : State, b.fault = [] →
      Transacts b (ok (start b) (start b).drawn) ∧ Transacts b ((err (start b) (start b).drawn).returns .err) ∧
      Transacts b ((start b).drawn.returns .never)) :
    Transacts s (transaction start ok err s) :=
  transacts_of_action s fun b hb => by
    obtain ⟨h1, h2, h3⟩ := h b hb
    dsimp only
    split
    · exact h1
    · exact h2
    · exact h3

theorem cbWrite_transacts (a : CbAddr) (v : Byte) (s : State) : Transacts s (cbWrite a v s) :=
  transacts_of_answer s fun b hb => by
    refine ⟨⟨rfl, ?_, ?_, ?_, ?_, ?_, ?_, ?_⟩, ⟨rfl, ?_, ?_, ?_, ?_, ?_, ?_, ?_⟩, ⟨rfl, ?_, ?_, ?_, ?_, ?_, ?_, ?_⟩⟩ <;>
      simp_all [State.returns, State.emit, State.drawn]

theorem cbRead_transacts (a : CbAddr) (s : State) : Transacts s (cbRead a s) :=
  transacts_of_answer s fun b hb => by
    refine ⟨⟨rfl, ?_, ?_, ?_, ?_, ?_, ?_, ?_⟩, ⟨rfl, ?_, ?_, ?_, ?_, ?_, ?_, ?_⟩, ⟨rfl, ?_, ?_, ?_, ?_, ?_, ?_, ?_⟩⟩ <;>
      simp_all [State.returns, State.emit, State.drawn]

theorem dbWrite_transacts (a : DbAddr) (v : Byte) (s : State) : Transacts s (dbWrite a v s) :=
  transacts_of_answer s fun b hb => by
    refine ⟨⟨?_, ?_, ?_, ?_, ?_, ?_, ?_, ?_⟩, ⟨?_, ?_, ?_, ?_, ?_, ?_, ?_, ?_⟩, ⟨?_, ?_, ?_, ?_, ?_, ?_, ?_, ?_⟩⟩ <;>
      simp_all [State.returns, State.emit, State.drawn, State.select, State.deselect]

theorem dbRead_transacts (a : DbAddr) (s : State) : Transacts s (dbRead a s) :=
  transacts_of_answer s fun b hb => by
    refine ⟨⟨?_, ?_, ?_, ?_, ?_, ?_, ?_, ?_⟩, ⟨?_, ?_, ?_, ?_, ?_, ?_, ?_, ?_⟩, ⟨?_, ?_, ?_, ?_, ?_, ?_, ?_, ?_⟩⟩ <;>
      simp_all [State.returns, State.emit, State.drawn, State.select, State.deselect]

theorem dbBurst_transacts (n : Count) (dst : BurstDst) (s : State) : Transacts s (dbBurst n dst s) :=
  transacts_of_answer s fun b hb => by
    cases dst <;>
    refine ⟨⟨?_, ?_, ?_, ?_, ?_, ?_, ?_, ?_⟩, ⟨?_, ?_, ?_, ?_, ?_, ?_, ?_, ?_⟩, ⟨?_, ?_, ?_, ?_, ?_, ?_, ?_, ?_⟩⟩ <;>
      simp_all [State.returns, State.emit, State.drawn, State.select, State.deselect, State.deliver, State.outWrite]

/-- A transaction that leaves BUF, OUT and DRAIN_IDX alone when it takes place leaves them alone. -/
theorem buffers_of_answer {start : State → State} {ok err : State → State → State} (s : State)
    (h : ∀ b : State, ((start b).drawn.buf = b.buf ∧ (start b).drawn.out = b.out ∧
        (start b).drawn.drainIdx = b.drainIdx) ∧
      ((ok (start b) (start b).drawn).buf = b.buf ∧ (ok (start b) (start b).drawn).out = b.out ∧
        (ok (start b) (start b).drawn).drainIdx = b.drainIdx) ∧
      (err (start b) (start b).drawn).buf = b.buf ∧ (err (start b) (start b).drawn).out = b.out ∧
        (err (start b) (start b).drawn).drainIdx = b.drainIdx) :
    (transaction start ok err s).buf = s.buf ∧ (transaction start ok err s).out = s.out ∧
      (transaction start ok err s).drainIdx = s.drainIdx := by
  obtain ⟨hf, -, -⟩ := hostTurn_frame s
  have hb : s.hostTurn.buf = s.buf ∧ s.hostTurn.out = s.out ∧ s.hostTurn.drainIdx = s.drainIdx := by
    rw [hf]; exact ⟨rfl, rfl, rfl⟩
  simp only [transaction, inTurn]
  obtain ⟨h1, h2, h3⟩ := h s.hostTurn
  rw [hb.1, hb.2.1, hb.2.2] at h1 h2 h3
  split
  · split
    · exact h2
    · exact h3
    · exact h1
  · exact hb

theorem cbWrite_buffers (a : CbAddr) (v : Byte) (s : State) :
    (cbWrite a v s).buf = s.buf ∧ (cbWrite a v s).out = s.out ∧ (cbWrite a v s).drainIdx = s.drainIdx :=
  buffers_of_answer s fun b => by simp [State.drawn]

theorem cbRead_buffers (a : CbAddr) (s : State) :
    (cbRead a s).buf = s.buf ∧ (cbRead a s).out = s.out ∧ (cbRead a s).drainIdx = s.drainIdx :=
  buffers_of_answer s fun b => by simp [State.drawn]

theorem dbWrite_buffers (a : DbAddr) (v : Byte) (s : State) :
    (dbWrite a v s).buf = s.buf ∧ (dbWrite a v s).out = s.out ∧ (dbWrite a v s).drainIdx = s.drainIdx :=
  buffers_of_answer s fun b => by simp [State.drawn, State.select, State.deselect]

theorem dbRead_buffers (a : DbAddr) (s : State) :
    (dbRead a s).buf = s.buf ∧ (dbRead a s).out = s.out ∧ (dbRead a s).drainIdx = s.drainIdx :=
  buffers_of_answer s fun b => by simp [State.drawn, State.select, State.deselect]

/-- A burst writes only its destination: bytes 0 to `n` - 1 of BUF, or the end of OUT (R80, R110). -/
theorem dbBurst_buffers (n : Count) (dst : BurstDst) (s : State) :
    (dst = .out → (dbBurst n dst s).buf = s.buf) ∧
    (dst = .buf → (dbBurst n dst s).out = s.out ∧ ((dbBurst n dst s).buf = s.buf ∨
      ∃ bytes : List Byte, bytes.length = n.toNat ∧ (dbBurst n dst s).buf = s.buf.writeBytes 0 bytes)) := by
  obtain ⟨hf, -, -⟩ := hostTurn_frame s
  have hb : s.hostTurn.buf = s.buf ∧ s.hostTurn.out = s.out := by rw [hf]; exact ⟨rfl, rfl⟩
  simp only [dbBurst, transaction, inTurn]
  split
  · split <;> cases dst <;>
      simp [State.deliver, State.outWrite, State.returns, State.deselect, State.emit, State.drawn, State.select,
        State.burstDebris, hb.1, hb.2]
    · exact .inr ⟨_, by simp, rfl⟩
    · exact .inr ⟨_, by simp, rfl⟩
  · simp [hb.1, hb.2]

end Sys2Proof.Machine
end

