-- ==== Sys2Proof/Laws/PerInstr.lean ====
section
/-! SUPPORT. A family of statements, one per instruction: how many bytes its encoding has (30_encoding.md R64 to R69). -/

namespace Sys2Proof.Laws.EncodedLength

/-- The number of bytes of a form: those of a host command or a table word, and those that pass on a bus, either way. -/
def size : Encoded → Nat
  | .host bytes => bytes.length
  | .tbl8 _ => 2
  | .tbl16 _ => 3
  | .db _ sent received => sent.length + received
  | .cb wire => wire.countP fun x => match x with
    | .byte _ => true
    | .received => true
    | _ => false

/-- The number of bytes the spec gives the instruction: a host command its opcode and operand bytes (R68), a table entry
its word (R64, R65), a transaction the bytes that pass (R66, R67); a control-bus address has `P_ADDR_W` / 8 bytes. -/
def expected (p : Params) : Instr → Nat
  | .selftest => 1
  | .probe => 1
  | .configure _ => 2
  | .capture => 1
  | .reconstruct => 1
  | .state => 1
  | .cread _ => 1 + p.addrW / 8
  | .cwrite _ _ => 2 + p.addrW / 8
  | .dread _ => 2
  | .dwrite _ _ => 3
  | .dburst _ => 4
  | .hostIllegal bytes => bytes.length
  | .wr8 _ _ => 2
  | .end8 => 2
  | .wr16 _ _ => 3
  | .dbRead _ => 2
  | .dbWrite _ _ => 2
  | .dbBurst n _ => 1 + n.toNat
  | .cbWrite _ _ => 2 + p.addrW / 8
  | .cbRead _ => 3 + p.addrW / 8

/-- The encoding has the number of bytes the spec gives, in a block of either address width. -/
def Statement (i : Instr) : Prop :=
  ∀ p : Params, p.addrW = 8 ∨ p.addrW = 16 → size (encode p i) = expected p i

theorem selftest : Statement .selftest := fun _ _ => rfl
theorem probe : Statement .probe := fun _ _ => rfl
theorem configure (m : Byte) : Statement (.configure m) := fun _ _ => rfl
theorem capture : Statement .capture := fun _ _ => rfl
theorem reconstruct : Statement .reconstruct := fun _ _ => rfl
theorem state : Statement .state := fun _ _ => rfl

theorem cread (a : CbAddr) : Statement (.cread a) := by
  rintro p (h | h) <;> simp [encode, size, expected, addrBytes, h]

theorem cwrite (a : CbAddr) (v : Byte) : Statement (.cwrite a v) := by
  rintro p (h | h) <;> simp [encode, size, expected, addrBytes, h]

theorem dread (a : Byte) : Statement (.dread a) := fun _ _ => rfl
theorem dwrite (a : Byte) (v : Byte) : Statement (.dwrite a v) := fun _ _ => rfl
theorem dburst (n : BitVec 24) : Statement (.dburst n) := fun _ _ => rfl
theorem hostIllegal (bytes : List Byte) : Statement (.hostIllegal bytes) := fun _ _ => rfl
theorem wr8 (a : Byte) (v : Byte) : Statement (.wr8 a v) := fun _ _ => rfl
theorem end8 : Statement .end8 := fun _ _ => rfl
theorem wr16 (a : CbAddr) (v : Byte) : Statement (.wr16 a v) := fun _ _ => rfl
theorem dbRead (a : DbAddr) : Statement (.dbRead a) := fun _ _ => rfl
theorem dbWrite (a : DbAddr) (v : Byte) : Statement (.dbWrite a v) := fun _ _ => rfl
theorem dbBurst (n : Count) (dst : BurstDst) : Statement (.dbBurst n dst) := fun _ _ => rfl

theorem cbWrite (a : CbAddr) (v : Byte) : Statement (.cbWrite a v) := by
  rintro p (h | h) <;> simp [encode, size, expected, addrWire, h]

theorem cbRead (a : CbAddr) : Statement (.cbRead a) := by
  rintro p (h | h) <;> simp [encode, size, expected, addrWire, h]

end Sys2Proof.Laws.EncodedLength
end

