-- ==== Sys2Proof/Laws/Sequencer.lean ====
section
/-! SUPPORT. Playback (R89): what it leaves when every write answers `Ok`, and when one is the first to
answer `Err` or has no outcome. -/

namespace Sys2Proof.Machine

/-- The write entries of a list of entries before its end. -/
def leading (es : List (Option (CbAddr × Byte))) : List (CbAddr × Byte) := (es.takeWhile Option.isSome).filterMap id

theorem leading_cons (e : CbAddr × Byte) (es : List (Option (CbAddr × Byte))) :
    leading (some e :: es) = e :: leading es := rfl

theorem leading_none (es : List (Option (CbAddr × Byte))) : leading (none :: es) = [] := rfl

theorem leading_length (es : List (Option (CbAddr × Byte))) :
    (leading es).length = (es.takeWhile Option.isSome).length := by
  induction es with
  | nil => rfl
  | cons e es ih => cases e with
    | none => rfl
    | some e => simpa [leading] using ih

theorem writes_eq (t : RegisterTable) : writes t = leading t.entries := rfl

theorem writes_length (t : RegisterTable) : (writes t).length = writeCount t := leading_length _

/-- The end of a table in a block that acts (R88, R91, R93). -/
theorem playEnd_clear (s : State) (h : s.clear = true) : playEnd s = { s with seqState := .idle, reply := .ok 0 } :=
  inTurn_clear _ s h

/-- The end of a settle wait in a block that acts (R88, R94). -/
theorem settleEnd_clear (s : State) (h : s.clear = true) (hq : s.seqState = .settle) :
    settleEnd s = { s with seqState := .run, seqPc := s.seqPc + 1 } := by
  rw [settleEnd, if_pos hq]
  exact inTurn_clear _ s h

/-- One write entry that answers `Ok` in SEQ_RUN, its settle wait included (R88, R94). -/
theorem entry_at_ok {base s : State} {k : Nat} (h : At base k s) (a : CbAddr) (v : Byte) (ok : base.saysOk k = true)
    (hr : s.seqState = .run) :
    settleEnd (seqWrite a v s) =
      { s with log := s.log ++ (.cbWr a v ::
                 if settleAfter s.params s.seqTbl s.seqPc.toNat then [.wait .initSettle] else []),
               answers := base.answers.drop (k + 1), draws := base.draws + (k + 1), reply := .ok 0,
               seqPc := s.seqPc + 1 } := by
  rw [seqWrite, cbWrite_at_ok h a v ok]
  simp only [afterWrite, onReply]
  split
  · rw [settleEnd_clear]
    · simp [State.emit, hr]
    · exact (clear_iff _).mpr ⟨h.fault, h.quiet⟩
    · rfl
  · simp [settleEnd, hr]

/-- One write entry that answers `Err`: SEQ_IDLE, SEQ_PC kept (R88, R95). -/
theorem entry_at_err {base s : State} {k : Nat} (h : At base k s) (a : CbAddr) (v : Byte) (err : base.saysErr k = true) :
    settleEnd (seqWrite a v s) =
      { s with log := s.log ++ [.err (.cbWr a v)], answers := base.answers.drop (k + 1),
               draws := base.draws + (k + 1), reply := .err, seqState := .idle } := by
  rw [seqWrite, cbWrite_at_err h a v err]
  rfl

/-- One write entry without an outcome: the sequencer stays in SEQ_RUN (R88). -/
theorem entry_at_nothing {base s : State} {k : Nat} (h : At base k s) (a : CbAddr) (v : Byte)
    (no : base.saysNothing k = true) (hr : s.seqState = .run) :
    settleEnd (seqWrite a v s) =
      { s with answers := base.answers.drop (k + 1), draws := base.draws + (k + 1), reply := .never } := by
  rw [seqWrite, cbWrite_at_nothing h a v no]
  simp [afterWrite, onReply, settleEnd, hr]

/-- Playback whose writes all answer `Ok` (R89, R97). -/
theorem playFrom_at_ok {base : State} (es : List (Option (CbAddr × Byte))) : ∀ (s : State) (k : Nat), At base k s →
    s.seqState = .run → s.seqPc.toNat + (leading es).length < 2 ^ 16 →
    (∀ j, j < (leading es).length → base.saysOk (k + j) = true) →
    playFrom es s =
      { s with log := s.log ++ playEvents s.params s.seqTbl (leading es) s.seqPc.toNat,
               answers := base.answers.drop (k + (leading es).length), draws := base.draws + (k + (leading es).length),
               reply := .ok 0, seqState := .idle, seqPc := s.seqPc + BitVec.ofNat 16 (leading es).length } := by
  induction es with
  | nil =>
    intro s k h _ _ _
    simp [playFrom, playEnd_clear s h.clear, leading, playEvents, ← h.answers, ← h.draws]
  | cons e es ih =>
    intro s k h hr hpc hok
    cases e with
    | none => simp [playFrom, playEnd_clear s h.clear, leading_none, playEvents, ← h.answers, ← h.draws]
    | some e =>
      obtain ⟨a, v⟩ := e
      simp only [leading_cons, List.length_cons] at hpc hok ⊢
      have hpc1 : (s.seqPc + 1).toNat = s.seqPc.toNat + 1 := by
        rw [BitVec.toNat_add]; simp; omega
      have hu := entry_at_ok h a v (by simpa using hok 0 (by omega)) hr
      rw [playFrom]
      generalize settleEnd (seqWrite a v s) = u at hu ⊢
      simp only [show u.reply = .ok 0 by rw [hu]]
      rw [ih u (k + 1) (by rw [hu]; exact ⟨rfl, rfl, h.fault, h.quiet⟩) (by rw [hu]; exact hr)
        (by rw [hu]; simp only [hpc1]; omega)
        (fun j hj => by rw [show k + 1 + j = k + (j + 1) by omega]; exact hok (j + 1) (by omega)), hu]
      simp only [playEvents, hpc1, List.append_assoc, List.cons_append, show k + 1 + (leading es).length =
        k + ((leading es).length + 1) by omega]
      congr 1
      apply BitVec.eq_of_toNat_eq
      simp
      omega

/-- Playback whose write `j` is the first to answer `Err` (R89, R95). -/
theorem playFrom_at_err {base : State} (es : List (Option (CbAddr × Byte))) : ∀ (s : State) (k j : Nat) (a : CbAddr)
    (v : Byte), At base k s → s.seqState = .run → s.seqPc.toNat + j < 2 ^ 16 → (leading es)[j]? = some (a, v) →
    (∀ i, i < j → base.saysOk (k + i) = true) → base.saysErr (k + j) = true →
    playFrom es s =
      { s with log := s.log ++ playEvents s.params s.seqTbl ((leading es).take j) s.seqPc.toNat ++ [.err (.cbWr a v)],
               answers := base.answers.drop (k + j + 1), draws := base.draws + (k + j + 1),
               reply := .err, seqState := .idle, seqPc := s.seqPc + BitVec.ofNat 16 j } := by
  induction es with
  | nil => intro s k j a v _ _ _ hj; simp [leading] at hj
  | cons e es ih =>
    intro s k j a v h hr hpc hj hok herr
    cases e with
    | none => simp [leading_none] at hj
    | some e =>
      obtain ⟨a', v'⟩ := e
      rw [leading_cons] at hj ⊢
      cases j with
      | zero =>
        simp only [List.getElem?_cons_zero, Option.some.injEq, Prod.mk.injEq] at hj
        obtain ⟨rfl, rfl⟩ := hj
        rw [playFrom, entry_at_err h a' v' herr]
        simp [playEvents]
      | succ j =>
        have hpc1 : (s.seqPc + 1).toNat = s.seqPc.toNat + 1 := by
          rw [BitVec.toNat_add]; simp; omega
        have hu := entry_at_ok h a' v' (by simpa using hok 0 (by omega)) hr
        rw [playFrom]
        generalize settleEnd (seqWrite a' v' s) = u at hu ⊢
        simp only [show u.reply = .ok 0 by rw [hu]]
        rw [ih u (k + 1) j a v (by rw [hu]; exact ⟨rfl, rfl, h.fault, h.quiet⟩) (by rw [hu]; exact hr)
          (by rw [hu]; simp only [hpc1]; omega) (by simpa using hj)
          (fun i hi => by rw [show k + 1 + i = k + (i + 1) by omega]; exact hok (i + 1) (by omega))
          (by rw [show k + 1 + j = k + (j + 1) by omega]; exact herr), hu]
        simp only [playEvents, hpc1, List.append_assoc, List.cons_append, List.take_succ_cons,
          show k + 1 + j = k + (j + 1) by omega]
        congr 1
        apply BitVec.eq_of_toNat_eq
        simp
        omega

/-- Playback whose write `j` is the first without an outcome (R89). -/
theorem playFrom_at_nothing {base : State} (es : List (Option (CbAddr × Byte))) : ∀ (s : State) (k j : Nat), At base k s →
    s.seqState = .run → s.seqPc.toNat + j < 2 ^ 16 → j < (leading es).length →
    (∀ i, i < j → base.saysOk (k + i) = true) → base.saysNothing (k + j) = true →
    playFrom es s =
      { s with log := s.log ++ playEvents s.params s.seqTbl ((leading es).take j) s.seqPc.toNat,
               answers := base.answers.drop (k + j + 1), draws := base.draws + (k + j + 1),
               reply := .never, seqPc := s.seqPc + BitVec.ofNat 16 j } := by
  induction es with
  | nil => intro s k j _ _ _ hj; simp [leading] at hj
  | cons e es ih =>
    intro s k j h hr hpc hj hok no
    cases e with
    | none => simp [leading_none] at hj
    | some e =>
      obtain ⟨a', v'⟩ := e
      rw [leading_cons] at hj ⊢
      cases j with
      | zero =>
        rw [playFrom, entry_at_nothing h a' v' no hr]
        simp [playEvents]
      | succ j =>
        have hpc1 : (s.seqPc + 1).toNat = s.seqPc.toNat + 1 := by
          rw [BitVec.toNat_add]; simp; omega
        have hu := entry_at_ok h a' v' (by simpa using hok 0 (by omega)) hr
        rw [playFrom]
        generalize settleEnd (seqWrite a' v' s) = u at hu ⊢
        simp only [show u.reply = .ok 0 by rw [hu]]
        rw [ih u (k + 1) j (by rw [hu]; exact ⟨rfl, rfl, h.fault, h.quiet⟩) (by rw [hu]; exact hr)
          (by rw [hu]; simp only [hpc1]; omega) (by simpa using hj)
          (fun i hi => by rw [show k + 1 + i = k + (i + 1) by omega]; exact hok (i + 1) (by omega))
          (by rw [show k + 1 + j = k + (j + 1) by omega]; exact no), hu]
        simp only [playEvents, hpc1, List.append_assoc, List.cons_append, List.take_succ_cons,
          show k + 1 + j = k + (j + 1) by omega]
        congr 1
        apply BitVec.eq_of_toNat_eq
        simp
        omega

end Sys2Proof.Machine
end

