-- ==== Sys2Proof/Tests/Slice0.lean ====
section
/-! SUPPORT. The model's own tests. Expected results are the words and vectors of 95_test_vectors.md (named V-…) or are
read off a rule by hand; and for every statement of Certificates/Slice0/Obligations.lean that has hypotheses, a theorem
`witness_…` with a state and operands that meet them. -/

namespace Sys2Proof.Tests

open Sys2Proof.Machine

/-! ## Helpers -/

/-- The next state, where there is one. -/
def after : Host.Outcome State Fault Refusal → Option State
  | .next t => some t
  | _ => none

/-- The fault, where there is one. -/
def faultOf : Host.Outcome State Fault Refusal → Option Fault
  | .fault f => some f
  | _ => none

/-- What a command shows: the response and the events without the chip-select waits. -/
def shown (o : Host.Outcome State Fault Refusal) : Option (Byte × Count × BitVec 32 × List Event) :=
  (after o).map fun t => (t.status, t.resultLen, t.resultData, t.events)

/-- REF8 after reset, with a module that gives these answers. -/
def ref (answers : List Answer) : State := { State.reset with answers := answers }

/-- A block after SELFTEST, PROBE and CONFIGURE, with a module that gives these answers. -/
def checked (p : Params) (answers : List Answer) : State :=
  { State.resetWith p [] [] with
    selftestOk := true, probeOk := true, cfgValid := true, mode := p.defaultMode, answers := answers }

/-- The record RAW16 of 95_test_vectors.md section 2. -/
def raw16 : Params :=
  { Config.ref8 with
    variant := .sensor16, addrW := 16, sccbAddr := 0x24, tables := [(0x00, .tbl16 [0x010300, 0x010001])],
    defaultMode := 0x00, settle := [], probePrelude := .tbl16 [], idHAddr := 0x0000, idLAddr := 0x0001,
    n := 8, t := 2, cap := 64, raw := true }

/-- A SENSOR8 record whose prelude is one write, WR 0xFF, 0x01 (D38). -/
def prelude8 : Params := { Config.ref8 with probePrelude := .tbl8 [0xFF01, 0xFFFF] }

/-- A successful write, and a successful read of one byte. -/
def wrote : Answer := .ok []
def gave (v : Byte) : Answer := .ok [v]
def failed : Answer := .err [] 0

/-- A capture of `p` that waits for its next poll. -/
def waiting (p : Params) (answers : List Answer) : State :=
  { checked p answers with busy := true, cfsm := .capturing, bus := some (pollFrame p), reply := .ok 0 }

/-- The sequencer at an entry of the table of mode `m` of REF8, under a CONFIGURE. -/
def playing (m : Byte) (pc : BitVec 16) (q : SeqState) (answers : List Answer) : State :=
  { ref answers with busy := true, seqTbl := .mode m, seqPc := pc, seqState := q }

/-! ## WellFormed: an ill-formed term for each check, refused -/

theorem test_wf_address_too_wide : Instr.wf Config.ref8 (.cread 0x0100) = false ∧
    Instr.wf Config.ref8 (.cwrite 0x0100 0) = false ∧ Instr.wf Config.ref8 (.cbWrite 0x0100 0) = false ∧
    Instr.wf Config.ref8 (.cbRead 0x0100) = false ∧ Instr.wf raw16 (.cbRead 0x0100) = true := by decide

theorem test_wf_illegal_is_legal : Instr.wf Config.ref8 (.hostIllegal [0x01]) = false ∧
    Instr.wf Config.ref8 (.hostIllegal [0x01, 0x00]) = true := by decide

theorem test_wf_entry_is_terminator : Instr.wf Config.ref8 (.wr8 0xFF 0xFF) = false := by decide

theorem test_wf_entry_of_other_variant : Instr.wf raw16 (.wr8 0x12 0x80) = false ∧ Instr.wf raw16 .end8 = false ∧
    Instr.wf Config.ref8 (.wr16 0x3000 0x01) = false := by decide

theorem test_wf_burst_too_long : Instr.wf Config.ref8 (.dbBurst 65 .buf) = false ∧
    Instr.wf Config.ref8 (.dbBurst 65 .out) = true := by decide

/-- R7, item by item: a record that breaks one item is refused. -/
theorem test_record_items : recordWf Config.ref8 = true ∧ recordWf raw16 = true ∧
    recordWf { Config.ref8 with addrW := 16 } = false ∧
    recordWf { Config.ref8 with defaultMode := 0x42 } = false ∧
    recordWf { Config.ref8 with probePrelude := .tbl8 [0xFF01] } = false ∧
    recordWf { Config.ref8 with regTrig := 0x80 } = false ∧
    recordWf { Config.ref8 with capDone := 0 } = false ∧
    recordWf { Config.ref8 with n := 5 } = false ∧
    recordWf { Config.ref8 with t := 1 } = false ∧
    recordWf { Config.ref8 with cap := 2 ^ 23 } = false ∧
    recordWf { Config.ref8 with raw := true, cap := 15 } = false ∧
    recordWf { Config.ref8 with raw := true, push := true } = false ∧
    recordWf { Config.ref8 with pollLimit := some 0 } = false := by decide

theorem test_record_settle_mark : recordWf { Config.ref8 with settle := [(.mode 0x04, 4)] } = false ∧
    recordWf { Config.ref8 with settle := [(.mode 0x04, 3)] } = true := by decide

/-! ## Decoding words written out from the spec's encodings (V-ENC-1 to V-ENC-19) -/

theorem test_decode_host_plain : decodeHost 8 [0x01] = .selftest ∧ decodeHost 8 [0x02] = .probe ∧
    decodeHost 8 [0x04] = .capture ∧ decodeHost 8 [0x05] = .reconstruct ∧ decodeHost 8 [0x06] = .state ∧
    decodeHost 8 [0x03, 0x02] = .configure 0x02 := by decide

theorem test_decode_host_control_bus : decodeHost 8 [0x10, 0x0A] = .cread 0x0A ∧
    decodeHost 16 [0x10, 0x30, 0x00] = .cread 0x3000 ∧ decodeHost 8 [0x11, 0x12, 0x80] = .cwrite 0x12 0x80 ∧
    decodeHost 16 [0x11, 0x01, 0x03, 0x00] = .cwrite 0x0103 0x00 := by decide

theorem test_decode_host_data_bus : decodeHost 8 [0x12, 0x41] = .dread 0x41 ∧
    decodeHost 8 [0x13, 0x04, 0x02] = .dwrite 0x04 0x02 ∧ decodeHost 8 [0x14, 0x00, 0x00, 0x10] = .dburst 16 ∧
    decodeHost 8 [0x14, 0x7F, 0xFF, 0xFF] = .dburst 0x7FFFFF := by decide

theorem test_decode_host_illegal : (∀ op ∈ [0x00, 0x07, 0x0F, 0x15, 0xFF], decodeHost 8 [op] = .hostIllegal [op]) ∧
    decodeHost 8 [0x03] = .hostIllegal [0x03] ∧ decodeHost 8 [0x01, 0x00] = .hostIllegal [0x01, 0x00] ∧
    decodeHost 16 [0x10, 0x0A] = .hostIllegal [0x10, 0x0A] ∧ decodeHost 8 [] = .hostIllegal [] := by decide

theorem test_decode_tbl8 : decodeTbl8 0x1280 = .wr8 0x12 0x80 ∧ decodeTbl8 0xFF00 = .wr8 0xFF 0x00 ∧
    decodeTbl8 0x12FF = .wr8 0x12 0xFF ∧ decodeTbl8 0xFFFF = .end8 := by decide

theorem test_decode_tbl16 : decodeTbl16 0x300001 = .wr16 0x3000 0x01 ∧ decodeTbl16 0xFFFFFF = .wr16 0xFFFF 0xFF := by
  decide

theorem test_decode_data_bus : decode Config.ref8 (.db .read [0x41] 1) = .ok (.dbRead 0x41) ∧
    decode Config.ref8 (.db .write [0x84, 0x02] 0) = .ok (.dbWrite 0x04 0x02) ∧
    decode Config.ref8 (.db .write [0x80, 0x55] 0) = .ok (.dbWrite 0x00 0x55) ∧
    decode Config.ref8 (.db (.burst .buf) [0x3C] 16) = .ok (.dbBurst 16 .buf) := by decide

/-- R66: an address byte with the write indicator is no read, and one without it no write. -/
theorem test_decode_data_bus_rejects :
    decode Config.ref8 (.db .read [0xC1] 1) = .error .dataBusFrame ∧
    decode Config.ref8 (.db .write [0x04, 0x02] 0) = .error .dataBusFrame ∧
    decode Config.ref8 (.db (.burst .out) [0x3D] 16) = .error .dataBusFrame := by decide

theorem test_decode_control_bus :
    decode Config.ref8 (.cb [.start, .byte 0x60, .ack, .byte 0x12, .ack, .byte 0x80, .ack, .stop])
      = .ok (.cbWrite 0x12 0x80) ∧
    decode raw16 (.cb [.start, .byte 0x48, .ack, .byte 0x01, .ack, .byte 0x03, .ack, .byte 0x00, .ack, .stop])
      = .ok (.cbWrite 0x0103 0x00) ∧
    decode Config.ref8
      (.cb [.start, .byte 0x60, .ack, .byte 0x0A, .ack, .restart, .byte 0x61, .ack, .received, .nack, .stop])
      = .ok (.cbRead 0x0A) ∧
    decode Config.ref8 (.cb [.start, .byte 0x61, .ack, .byte 0x12, .ack, .byte 0x80, .ack, .stop])
      = .error .controlBusFrame := by decide

/-- The encoder writes the same words. -/
theorem test_encode : encode Config.ref8 (.dbWrite 0x04 0x02) = .db .write [0x84, 0x02] 0 ∧
    encode Config.ref8 (.wr8 0x12 0x80) = .tbl8 0x1280 ∧ encode raw16 (.wr16 0x0103 0x00) = .tbl16 0x010300 ∧
    encode raw16 (.cwrite 0x0103 0x00) = .host [0x11, 0x01, 0x03, 0x00] := by decide

/-! ## Transport and raw access (V-TR-1 to V-TR-12) -/

theorem test_dwrite : shown (exec (.dwrite 0x00 0x55) (ref [wrote])) = some (0, 0, 0, [.dbWr 0x00 0x55]) := by decide

/-- V-TR-11: a raw start leaves CFSM. -/
theorem test_dwrite_raw_start : (after (exec (.dwrite 0x04 0x02) (ref [wrote]))).map (·.cfsm) = some .idle := by decide

theorem test_dread : shown (exec (.dread 0x00) (ref [gave 0x55])) = some (0, 1, 0x55, [.dbRd 0x00 0x55]) := by decide

theorem test_dread_out_of_range : shown (exec (.dread 0x80) (ref [])) = some (9, 0, 0, []) := by decide

/-- V-TR-12: CS_N rises after `Err`. -/
theorem test_dread_bus_error : (after (exec (.dread 0x00) (ref [failed]))).map (fun t => (t.status, t.csN, t.events)) =
    some (1, true, [.err (.dbRd 0x00)]) := by decide

theorem test_cread : shown (exec (.cread 0x0A) (ref [gave 0x26])) = some (0, 1, 0x26, [.cbRd 0x0A 0x26]) := by decide

theorem test_cwrite : shown (exec (.cwrite 0x12 0x80) (ref [wrote])) = some (0, 0, 0, [.cbWr 0x12 0x80]) := by decide

theorem test_dburst_zero : shown (exec (.dburst 0) (ref [.ok []])) = some (0, 0, 0, [.dbBurst 0 []]) := by decide

theorem test_dburst_too_long : shown (exec (.dburst 65) (ref [])) = some (9, 0, 0, []) ∧
    shown (exec (.dburst 0x800000) (ref [])) = some (9, 0, 0, []) := by decide

/-- R80: each data-bus event comes after the two chip-select waits; the bytes of a burst onto OUT come before it. -/
theorem test_burst_log_order : (after (exec (.dbBurst 2 .out) (ref [.ok [7, 8]]))).map (·.log) =
    some [.wait .csSettle, .out [7, 8], .wait .csSettle, .dbBurst 2 [7, 8]] := by decide

theorem test_burst_into_buf : (after (exec (.dbBurst 3 .buf) (ref [.ok [7, 0, 9]]))).map (·.buf) =
    some [(0, 7), (2, 9)] := by decide

/-- R10, R74: a transaction without an outcome leaves chip select low. -/
theorem test_transaction_no_outcome : (after (exec (.dbRead 0x41) (ref [.noOutcome]))).map (fun t => (t.reply, t.csN)) =
    some (.never, false) := by decide

/-! ## Sequencer (V-SEQ-1 to V-SEQ-13) -/

/-- R88, R96: CONFIGURE starts the playback, and plays no entry yet. -/
theorem test_configure_starts : (after (exec (.configure 0x04) (ref []))).map
    (fun t => (t.busy, t.seqTbl, t.seqPc, t.seqState, t.events)) = some (true, .mode 0x04, 0, .run, []) := by decide

/-- V-SEQ-2 and V-SEQ-3: 0x42 and 0xFF are no modes and resolve to the default. -/
theorem test_configure_unknown : (after (exec (.configure 0x42) (ref []))).map (·.seqTbl) = some (.mode 0x02) ∧
    (after (exec (.configure 0xFF) (ref []))).map (·.seqTbl) = some (.mode 0x02) := by decide

/-- V-SEQ-9: the second write fails. -/
theorem test_configure_error : (after (step (playing 0x02 1 .run [failed]))).map
    (fun t => (t.busy, t.status, t.events, t.cfgValid, t.mode, t.seqPc)) =
    some (false, 3, [.err (.cbWr 0x12 0x80)], false, 0xFF, 1) := by decide

/-- V-SEQ-10: a TBL16 table ends at its length. -/
theorem test_configure_tbl16 : (after (step { playing 0x00 2 .run [] with params := raw16 })).map
    (fun t => (t.busy, t.status, t.cfgValid, t.seqPc)) = some (false, 0, true, 2) := by decide

/-- V-SEQ-12: WR 0xFFFF, 0xFF is a write. -/
theorem test_wr16_all_ones : (after (exec (.wr16 0xFFFF 0xFF) (ref [wrote]))).map (·.events) =
    some [.cbWr 0xFFFF 0xFF] := by decide

theorem test_wr8_goes_on : (after (exec (.wr8 0xFF 0x01) (playing 0x04 0 .run [wrote]))).map
    (fun t => (t.seqPc, t.seqState)) = some (1, .run) := by decide

/-- R88, R94: the marked entry settles before the next. -/
theorem test_wr8_settles : (after (exec (.wr8 0x12 0x80) (playing 0x04 1 .run [wrote]))).map
    (fun t => (t.seqPc, t.seqState)) = some (1, .settle) := by decide

/-- V-SEQ-4: the settle wait ends, and the next entry is the third. -/
theorem test_settle_ends : (after (step (playing 0x04 1 .settle []))).map (fun t => (t.seqPc, t.seqState, t.busy)) =
    some (2, .run, true) := by decide

/-- R88, R94, R95, D22: the steps of a playback, counted by hand: four writes, one of them marked, and the terminator; a
failed second write ends it. -/
theorem test_play_steps :
    ((tableOf Config.ref8 (.mode 0x04)).map fun t =>
      playSteps t.entries ((ref [wrote, wrote, wrote, wrote]).starts (.mode 0x04))) = some 6 ∧
    ((tableOf Config.ref8 (.mode 0x04)).map fun t =>
      playSteps t.entries ((ref [wrote, failed]).starts (.mode 0x04))) = some 2 := by decide

theorem test_end8 : (after (exec .end8 (playing 0x02 2 .run []))).map (fun t => (t.seqPc, t.seqState, t.reply)) =
    some (2, .idle, .ok 0) := by decide

/-- R89, R96: the step that plays the terminator ends the CONFIGURE that plays the table. -/
theorem test_step_entry_returns : (after (step (playing 0x02 2 .run []))).map (fun t => (t.busy, t.status, t.mode)) =
    some (false, 0, 0x02) := by decide

/-! ## Length, probe, checks (V-LEN, V-PRB, V-ST) -/

theorem test_fifo_length : fifoLength 0x10 0x00 0x00 = 16 ∧ fifoLength 0xFF 0xFF 0xFF = 0x7FFFFF ∧
    fifoLength 0x00 0x00 0x80 = 0 ∧ fifoLength 0x34 0x12 0x81 = 0x011234 ∧ fifoLength 0xA0 0x86 0x01 = 100000 := by decide

theorem test_probe_pass : probePass 0x26 0x40 = true ∧ probePass 0x26 0x42 = true ∧ probePass 0x26 0x3F = false ∧
    probePass 0x26 0x43 = false ∧ probePass 0x25 0x40 = false ∧ probePass 0x27 0x42 = false := by decide

theorem test_selftest : (after (exec .selftest (ref [wrote, gave 0x55]))).map
    (fun t => (t.status, t.resultData, t.selftestOk, t.events)) =
    some (0, 0x55, true, [.dbWr 0x00 0x55, .dbRd 0x00 0x55]) := by decide

theorem test_selftest_mismatch : (after (exec .selftest (ref [wrote, gave 0x54]))).map
    (fun t => (t.status, t.resultData, t.selftestOk)) = some (2, 0x54, false) := by decide

/-- A PROBE whose empty prelude is at its end. -/
def probing (s : State) : State := { s with busy := true, seqTbl := .prelude, seqState := .run }

theorem test_probe_starts : (after (exec .probe (ref []))).map (fun t => (t.busy, t.seqTbl, t.seqState)) =
    some (true, .prelude, .run) := by decide

theorem test_probe : (after (step (probing (ref [gave 0x26, gave 0x42])))).map
    (fun t => (t.status, t.resultData, t.probeOk, t.events)) =
    some (0, 0x2642, true, [.cbRd 0x0A 0x26, .cbRd 0x0B 0x42]) := by decide

/-- V-ST-8: PROBE_OK goes 1 to 0. -/
theorem test_probe_fails_again : (after (step (probing (checked Config.ref8 [gave 0x26, gave 0x43])))).map
    (fun t => (t.status, t.resultData, t.probeOk)) = some (2, 0x2643, false) := by decide

/-! ## Capture (V-CAP-1 to V-CAP-19) -/

/-- The answers of the mock of 95_test_vectors.md section 2 to a CAPTURE of `frame` whose first poll is done. -/
def frameAnswers (frame : List Byte) : List Answer :=
  [wrote, wrote, gave 0x08, gave (BitVec.ofNat 8 frame.length), gave 0, gave 0, .ok frame]

/-- V-CAP-15. -/
theorem test_capture_continuous :
    (after (exec .capture (checked { Config.ref8 with continuous := true } (frameAnswers [1, 2, 3, 4] ++ [wrote])))).map
      (fun t => (t.resultLen, t.cfsm, t.buf.read 3, t.events)) =
    some (4, .cleared, 4,
      [.dbWr 0x04 0x01, .dbWr 0x04 0x02, .dbRd 0x41 0x08, .dbRd 0x42 0x04, .dbRd 0x43 0x00, .dbRd 0x44 0x00,
       .dbBurst 4 [1, 2, 3, 4], .dbWr 0x04 0x01]) := by decide

/-- V-CAP-18, on a short frame: the header, then the frame, on OUT; BUF is not written. -/
theorem test_capture_push : (after (exec .capture (checked { Config.ref8 with push := true } (frameAnswers [1, 2])))).map
    (fun t => (t.out, t.buf.read 0, t.events.drop 6)) =
    some ([0xAA, 0x55, 1, 2], 0, [.out [0xAA, 0x55], .out [1, 2], .dbBurst 2 [1, 2]]) := by decide

/-- V-CAP-6: the gate comes before every transaction. -/
theorem test_capture_not_ready : shown (exec .capture (ref [failed])) = some (6, 0, 0, []) := by decide

/-- V-CAP-9: a failed length read keeps LEN and LEN_VALID. -/
theorem test_capture_length_error :
    (after (exec .capture (checked Config.ref8 [wrote, wrote, gave 0x08, gave 0x10, failed]))).map
      (fun t => (t.status, t.lenValid, t.cfsm, t.events.drop 3)) =
    some (1, false, .idle, [.dbRd 0x42 0x10, .err (.dbRd 0x43)]) := by decide

/-- V-CAP-12: a limit of one poll. -/
theorem test_capture_stall :
    (after (exec .capture (checked { Config.ref8 with pollLimit := some 1 } [wrote, wrote, gave 0]))).map
      (fun t => (t.status, t.cfsm, t.pollCnt)) = some (4, .idle, 0) := by decide

/-- V-CAP-4: a frame of 65 bytes. -/
theorem test_capture_capacity :
    (after (exec .capture (checked Config.ref8 [wrote, wrote, gave 0x08, gave 0x41, gave 0, gave 0]))).map
      (fun t => (t.status, t.len, t.lenValid, t.cfsm)) = some (5, 65, true, .idle) := by decide

/-- V-HI-8: a raw frame of N*N - 1 bytes. -/
theorem test_capture_frame_size :
    (after (exec .capture (checked raw16 [wrote, wrote, gave 0x08, gave 0x3F, gave 0, gave 0]))).map
      (fun t => (t.status, t.len, t.cfsm)) = some (7, 63, .idle) := by decide

/-- V-CAP-2: a poll that reads clear, one step, and the next poll. -/
theorem test_capture_polls :
    (after (exec .capture (checked Config.ref8 [wrote, wrote, gave 0]))).map
      (fun t => (t.busy, t.cfsm, t.bus, t.events.drop 2)) =
    some (true, .capturing, some (.db .read [0x41] 1), [.dbRd 0x41 0x00]) := by decide

/-- V-CAP-17: the re-clear fails. -/
theorem test_capture_reclear_error :
    (after (exec .capture (checked { Config.ref8 with continuous := true } (frameAnswers [1] ++ [failed])))).map
      (fun t => (t.status, t.cfsm, t.buf)) = some (1, .idle, [(0, 1)]) := by decide

/-! ## Reconstruction (V-REC) -/

/-- V-REC-14: BUF[i] = i. -/
theorem test_reconstruct : (after (exec .reconstruct (State.resetWith Config.ref8 [(1, 1), (3, 3), (4, 4), (6, 6)] []))).map
    (fun t => (t.status, t.resultLen, t.obuf)) = some (0, 4, [(0, 1), (1, 3), (2, 4), (3, 6)]) := by decide

/-- V-REC-1 and V-REC-3: the geometry of N = 324, T = 96 and of N = 8, T = 2. -/
theorem test_geometry :
    (planeSide { Config.ref8 with n := 324, t := 96 } = 162 ∧ cropOffset { Config.ref8 with n := 324, t := 96 } = 33) ∧
    sourceIndex raw16 0 0 = 10 ∧ sourceIndex raw16 0 1 = 12 ∧ sourceIndex raw16 1 0 = 19 ∧ sourceIndex raw16 1 1 = 21 := by
  decide

/-! ## The host interface (V-HI) -/

/-- V-HI-1: STATE right after reset. -/
theorem test_state_after_reset : shown (exec .state State.reset) = some (0, 0, 0x0000FF00, []) := by decide

/-- V-HI-2 (program P2's end state). -/
theorem test_state_after_capture :
    shown (exec .state { checked Config.ref8 [] with len := 16, lenValid := true }) = some (0, 16, 0x000102E0, []) := by
  decide

/-- V-HI-7: opcode 0x07. -/
theorem test_illegal_command : shown (exec (decodeHost 8 [0x07]) State.reset) = some (8, 0, 0, []) := by decide

/-- V-HI-4: a command issued while CAPTURE polls. -/
theorem test_busy_violation :
    (after (step { waiting Config.ref8 [gave 0] with host := [.command [0x06] (some 0)] })).map
      (fun t => (t.fault, t.status, t.busy, faultOf (step t))) =
    some ([.busyViolation], 0xFF, true, some .busyViolation) := by decide

/-- R127: one that comes in a settle wait, and one that comes before the response of STATE. -/
theorem test_busy_violation_settle :
    (after (step { playing 0x04 1 .settle [] with host := [.command [0x06] (some 0)] })).map
      (fun t => (t.fault, t.seqState, t.host)) = some ([.busyViolation], .settle, []) ∧
    (after (exec .state { State.reset with host := [.command [0x06] (some 1)] })).map
      (fun t => (t.fault, t.busy, t.status, t.host)) = some ([.busyViolation], true, 0xFF, []) := by decide

/-- R134: a host write that is left does not keep a run from its end; a command that is left does. -/
theorem test_ended : ({ State.reset with host := [.store .buf 0 1] } : State).ended = true ∧
    ({ State.reset with host := [.command [0x06] none] } : State).ended = false := by decide

/-- A command the host hands over runs from reset. -/
theorem test_first_command : (after (step { State.reset with host := [.command [0x06] none] })).map (·.resultData) =
    some 0x0000FF00 := by decide

/-! ## The opcode table's words -/

theorem test_table_words : decodeTableWord 8 0x04 = some .capture ∧ decodeTableWord 16 0xFFFF = some .end8 ∧
    decodeTableWord 32 0x14 = some (.dburst 0) ∧ decodeTableWord 8 0x41 = some (.dbRead 0x41) := by decide

theorem test_fetch_word : (after (step (State.reset.withFetchWord 8 0x04))).map (·.status) = some 6 ∧
    (after (step ((ref [gave 0x26, gave 0x42]).withFetchWord 16 0xFFFF))).map (·.resultData) = some 0x2642 := by decide

/-! ## Witnesses: encoding, the record, the whole machine -/

theorem witness_DecodeEncodeAgree : recordWf Config.ref8 = true ∧ Instr.wf Config.ref8 (.cbWrite 0xFF 0x00) = true ∧
    Instr.wf Config.ref8 (.dbBurst 64 .buf) = true ∧ recordWf raw16 = true ∧ Instr.wf raw16 (.wr16 0xFFFF 0xFF) = true := by
  decide

theorem witness_HostBytesReencode : recordWf raw16 = true := by decide

theorem witness_ResetValues : recordWf { Config.ref8 with n := 3 } = false := by decide

/-- A record that is refused, and one that meets every item, with a marked table and an empty TBL16 prelude. -/
theorem witness_RecordMustBeWellFormed : recordWf (State.resetWith { Config.ref8 with n := 3 } [] []).params = false ∧
    recordWf { Config.ref8 with pollLimit := some 1 } = true ∧ recordWf { Config.ref8 with idHAddr := 0x0100 } = false ∧
    tableOf Config.ref8 (.mode 0x04) = some (.tbl8 [0xFF01, 0x1280, 0xFF00, 0xDA10, 0xFFFF]) ∧
    settleAfter Config.ref8 (.mode 0x04) 1 = true ∧ tableOf raw16 .prelude = some (.tbl16 []) := by decide

theorem witness_InvariantAtReset : recordWf Config.ref8 = true ∧ Memory.wf [(63, 1)] = true ∧ Memory.wf [(3, 7)] = true ∧
    Memory.within [(63, 1)] Config.ref8.cap = true ∧ Memory.within [(3, 7)] (Config.ref8.t * Config.ref8.t) = true := by
  decide

/-- A polling capture meets the invariant, whatever the host will do within its buffers. -/
theorem waiting_inv (answers : List Answer) (host : List HostMove) (h : host.all (moveInRange Config.ref8) = true) :
    ({ waiting Config.ref8 answers with host := host } : State).Inv where
  bufWf := rfl
  obufWf := rfl
  bufWithin := rfl
  obufWithin := rfl
  restCfsm h := by cases h
  restSeq h := by cases h
  csHigh := .inl rfl
  neverBusy _ := rfl
  faultBusy h := absurd rfl h
  busPoll := .inr ⟨rfl, rfl, rfl, rfl, by simp [waiting]⟩
  seqRuns h := absurd rfl h
  seqCfsm h := absurd rfl h
  modeKnown := .inr (show (0x02 : Byte) ∈ modes Config.ref8 by decide)
  cfgMode _ := show (0x02 : Byte) ∈ modes Config.ref8 by decide
  statusCode := .inl rfl
  pollBound k h := by cases h
  pollNone _ := rfl
  hostRange := h

theorem witness_InvariantKept : recordWf (waiting Config.ref8 [gave 0]).params = true ∧
    (waiting Config.ref8 [gave 0]).Inv ∧ ∃ t, step (waiting Config.ref8 [gave 0]) = .next t :=
  ⟨by decide, waiting_inv _ [] rfl, _, rfl⟩

theorem witness_UnfaultedBlockAlwaysSteps : recordWf (waiting Config.ref8 []).params = true ∧
    (waiting Config.ref8 []).Inv ∧ (waiting Config.ref8 []).fault = [] := ⟨by decide, waiting_inv _ [] rfl, rfl⟩

theorem witness_FaultedBlockStops : recordWf State.reset.busyViolation.params = true ∧
    State.reset.busyViolation.fault ≠ [] ∧ isHostCommand .capture = true := by decide

theorem witness_HistoryOnlyGrows : ∃ t, step State.reset = .next t := ⟨_, rfl⟩

theorem witness_StepRunsDecodedInstruction :
    (recordWf Config.ref8 = true ∧ (ref []).fault = [] ∧ (ref []).busy = false ∧ (ref []).bus = none ∧
      (ref []).seqState = .idle ∧ decode Config.ref8 (.host [0x12, 0x80]) = .ok (.dread 0x80)) ∧
    (stuck (playing 0x02 1 .run [wrote]) = false ∧ (playing 0x02 1 .run [wrote]).bus = none ∧
      tableOf Config.ref8 (.mode 0x02) = some (.tbl8 [0xFF01, 0x1280, 0xFFFF]) ∧
      atTableEnd (.tbl8 [0xFF01, 0x1280, 0xFFFF]) 1 = false ∧
      RegisterTable.formAt (.tbl8 [0xFF01, 0x1280, 0xFFFF]) 1 = some (.tbl8 0x1280) ∧
      decode Config.ref8 (.tbl8 0x1280) = .ok (.wr8 0x12 0x80)) ∧
    (stuck (waiting Config.ref8 [gave 0]) = false ∧ (waiting Config.ref8 [gave 0]).bus = some (.db .read [0x41] 1) ∧
      decode Config.ref8 (.db .read [0x41] 1) = .ok (.dbRead 0x41)) := by decide

theorem witness_StepRunsDecodedInstruction_next :
    (∃ t, exec (.wr8 0x12 0x80) (playing 0x02 1 .run [wrote]) = .next t) ∧
    ∃ t, exec (.dbRead 0x41) { waiting Config.ref8 [gave 0] with bus := none } = .next t := ⟨⟨_, rfl⟩, ⟨_, rfl⟩⟩

theorem witness_IdleBlockKeepsEverything : recordWf State.reset.params = true ∧ State.reset.fault = [] ∧
    State.reset.busy = false ∧ State.reset.bus = none ∧ State.reset.seqState = .idle ∧ State.reset.host = [] ∧
    ({ State.reset with host := [.store .obuf 3 1] } : State).ended = true ∧
    [HostMove.store .obuf 3 1].all (moveInRange State.reset.params) = true := by decide

/-- Both clauses at their boundary: the last byte of each buffer, and the first index past it. -/
theorem witness_HostStoreStep : recordWf State.reset.params = true ∧ State.reset.fault = [] ∧
    State.reset.busy = false ∧ State.reset.bus = none ∧ State.reset.seqState = .idle ∧
    (State.reset.contents .buf).wf = true ∧ (State.reset.contents .obuf).wf = true ∧
    63 < bufferSize State.reset.params .buf ∧ bufferSize State.reset.params .buf ≤ 64 ∧
    3 < bufferSize State.reset.params .obuf ∧ bufferSize State.reset.params .obuf ≤ 4 := by decide

/-! ## Witnesses: transactions and raw commands -/

/-- A block that may take a transaction, under each of the three answers. -/
theorem witness_transactions : (ref [gave 7]).clear = true ∧ (ref [gave 7]).saysOk 0 = true ∧
    (ref [failed]).clear = true ∧ (ref [failed]).saysErr 0 = true ∧ (ref [.noOutcome]).clear = true ∧
    (ref [.noOutcome]).saysNothing 0 = true := by decide

theorem witness_CbWriteTransaction : (ref [wrote]).clear = true ∧ (ref [wrote]).saysOk 0 = true := by decide
theorem witness_CbReadTransaction : (ref [gave 7]).clear = true ∧ (ref [gave 7]).saysOk 0 = true := by decide
theorem witness_DbWriteTransaction : (ref [failed]).clear = true ∧ (ref [failed]).saysErr 0 = true := by decide
theorem witness_DbReadTransaction : (ref [.noOutcome]).clear = true ∧ (ref [.noOutcome]).saysNothing 0 = true := by decide

/-- The longest burst that fits, and the shortest that does not. -/
theorem witness_DbBurstIntoBuf : (ref [.ok []]).clear = true ∧ (ref [.ok []]).buf.wf = true ∧
    (64 : Count).toNat ≤ (ref []).params.cap ∧ (ref []).params.cap < (65 : Count).toNat ∧
    (ref [.ok []]).saysOk 0 = true := by decide

theorem witness_DbBurstOntoOut : (ref [.err [1, 2, 3] 2]).clear = true ∧ (ref [.err [1, 2, 3] 2]).saysErr 0 = true := by
  decide

/-- A block that takes a command, under each of the three answers. -/
theorem witness_commands : (ref [gave 7]).accepting = true ∧ (ref [gave 7]).saysOk 0 = true ∧
    (ref [failed]).accepting = true ∧ (ref [failed]).saysErr 0 = true ∧ (ref [.noOutcome]).accepting = true ∧
    (ref [.noOutcome]).saysNothing 0 = true := by decide

theorem witness_CreadResult : (ref [gave 7]).accepting = true ∧ (ref [gave 7]).saysOk 0 = true := by decide
theorem witness_CwriteResult : (ref [failed]).accepting = true ∧ (ref [failed]).saysErr 0 = true := by decide

/-- The last legal address, and the first illegal one. -/
theorem witness_DreadResult : (ref [gave 7]).accepting = true ∧ (0x7F : Byte).toNat ≤ 0x7F ∧ 0x7F < (0x80 : Byte).toNat ∧
    (ref [gave 7]).saysOk 0 = true := by decide

theorem witness_DwriteResult : (ref [wrote]).accepting = true ∧ (0x7F : Byte).toNat ≤ 0x7F ∧ 0x7F < (0x80 : Byte).toNat ∧
    (ref [wrote]).saysOk 0 = true := by decide

/-- The longest count that fits; the shortest too long for BUF; the first that needs 24 bits. -/
theorem witness_DburstResult : (ref [.ok []]).accepting = true ∧ (ref [.ok []]).buf.wf = true ∧
    (ref [.ok []]).saysOk 0 = true ∧ (ref [failed]).saysErr 0 = true ∧ (ref [.noOutcome]).saysNothing 0 = true ∧
    (64 : BitVec 24).toNat ≤ (ref []).params.cap ∧ (ref []).params.cap < (65 : BitVec 24).toNat ∧
    2 ^ 23 ≤ (0x800000 : BitVec 24).toNat ∧ (64 : BitVec 24).toNat < 2 ^ 23 := by decide

/-! ## Witnesses: checks and sequencer -/

theorem witness_SelftestResult : (ref [failed]).accepting = true ∧ (ref [failed]).saysErr 0 = true ∧
    (ref [wrote, failed]).saysOk 0 = true ∧ (ref [wrote, failed]).saysErr 1 = true ∧
    (ref [wrote, gave 0x55]).saysOk 0 = true ∧ (ref [wrote, gave 0x55]).saysOk 1 = true ∧
    (ref [.noOutcome]).saysNothing 0 = true ∧ (ref [wrote, .noOutcome]).saysNothing 1 = true := by decide

theorem witness_ProbeResult : (checked prelude8 [wrote, gave 0x26, gave 0x40]).accepting = true ∧ recordWf prelude8 = true ∧
    (checked prelude8 []).bus = none ∧ writeCount prelude8.probePrelude = 1 ∧
    (checked prelude8 [wrote, gave 0x26, gave 0x40]).allOk 3 = true := by decide

/-- The write of the prelude fails; the first read fails; the second read fails. -/
theorem witness_ProbeFailure :
    let xs := (writes prelude8.probePrelude).map (fun e => Transaction.cbWr e.1 e.2) ++ [.cbRd 0x0A, .cbRd 0x0B]
    (checked prelude8 [failed]).accepting = true ∧ recordWf prelude8 = true ∧ (checked prelude8 []).bus = none ∧
    xs[0]? = some (.cbWr 0xFF 0x01) ∧ (checked prelude8 [failed]).saysErr 0 = true ∧
    xs[1]? = some (.cbRd 0x0A) ∧ (checked prelude8 [wrote, failed]).allOk 1 = true ∧
    (checked prelude8 [wrote, failed]).saysErr 1 = true ∧
    xs[2]? = some (.cbRd 0x0B) ∧ (checked prelude8 [wrote, gave 0x26, failed]).allOk 2 = true ∧
    (checked prelude8 [wrote, gave 0x26, failed]).saysErr 2 = true := by decide

/-- An entry without a mark, a marked one, a failed one and one without an outcome. -/
theorem witness_WriteEntryResult : (playing 0x04 0 .run [wrote]).clear = true ∧
    (playing 0x04 0 .run [wrote]).saysOk 0 = true ∧ settleAfter Config.ref8 (.mode 0x04) 0 = false ∧
    settleAfter Config.ref8 (.mode 0x04) 1 = true ∧ (playing 0x04 0 .run [failed]).saysErr 0 = true ∧
    (playing 0x04 0 .run [.noOutcome]).saysNothing 0 = true := by decide

theorem witness_SettleWaitEnds : recordWf (playing 0x04 1 .settle []).params = true ∧
    (playing 0x04 1 .settle []).clear = true ∧ stuck (playing 0x04 1 .settle []) = false ∧
    (playing 0x04 1 .settle []).bus = none ∧ (playing 0x04 1 .settle []).seqState = .settle := by decide

theorem witness_LengthEndsPlayback : recordWf raw16 = true ∧
    tableOf raw16 (.mode 0x00) = some (.tbl16 [0x010300, 0x010001]) ∧
    (2 : BitVec 16).toNat = [(0x010300 : BitVec 24), 0x010001].length ∧
    (playing 0x00 2 .run []).busy = true ∧ (playing 0x00 2 .run []).reply ≠ .never ∧ (playing 0x00 2 .run []).bus = none ∧
    (playing 0x00 2 .run []).seqState = .run ∧ (playing 0x00 2 .run []).clear = true := by decide

theorem witness_TerminatorEndsPlayback : (playing 0x02 2 .run []).clear = true := by decide

theorem witness_ConfigureResult : (ref [wrote, wrote]).accepting = true ∧ recordWf (ref []).params = true ∧
    (ref []).bus = none ∧ resolve Config.ref8 0x42 = 0x02 ∧
    tableOf Config.ref8 (.mode 0x02) = some (.tbl8 [0xFF01, 0x1280, 0xFFFF]) ∧
    writeCount (.tbl8 [0xFF01, 0x1280, 0xFFFF]) = 2 ∧ (ref [wrote, wrote]).allOk 2 = true := by decide

/-- The first write fails; the last write fails. -/
theorem witness_ConfigureFailure : (ref [failed]).accepting = true ∧
    (writes (.tbl8 [0xFF01, 0x1280, 0xFFFF]))[0]? = some (0xFF, 0x01) ∧ (ref [failed]).saysErr 0 = true ∧
    (writes (.tbl8 [0xFF01, 0x1280, 0xFFFF]))[1]? = some (0x12, 0x80) ∧ (ref [wrote, failed]).allOk 1 = true ∧
    (ref [wrote, failed]).saysErr 1 = true := by decide

/-- Each CONFIGURE of mode 0x02 takes three steps after its start: two entries and the terminator. -/
theorem witness_ConfigureTwiceSameEvents : ∃ s' t t' u, (ref [wrote, wrote, wrote, wrote]).accepting = true ∧
    recordWf (ref []).params = true ∧ (ref []).bus = none ∧
    exec (.configure 0x02) (ref [wrote, wrote, wrote, wrote]) = .next s' ∧ endsIn s' 3 t ∧ t.status = okCode ∧
    exec (.configure 0x02) t = .next t' ∧ endsIn t' 3 u ∧ u.status = okCode := by
  refine ⟨_, _, _, _, rfl, by decide, rfl, rfl, ⟨rfl, rfl, fun j hj => ?_⟩, rfl, rfl, ⟨rfl, rfl, fun j hj => ?_⟩, rfl⟩ <;>
    match j, hj with
    | 0, _ => exact ⟨_, rfl, rfl⟩
    | 1, _ => exact ⟨_, rfl, rfl⟩
    | 2, _ => exact ⟨_, rfl, rfl⟩

theorem witness_UnknownModePlaysDefault : recordWf (ref []).params = true ∧ 0x08 ∈ modes (ref []).params ∧
    0x09 ∉ modes (ref []).params ∧ 0xFF ∉ modes (ref []).params := by decide

theorem witness_PlaybackIsEntryByEntry : (ref [wrote, failed]).accepting = true ∧ recordWf (ref []).params = true ∧
    (ref [wrote, failed]).bus = none ∧ (tableOf Config.ref8 (.mode (resolve Config.ref8 0x02))).isSome = true ∧
    tableOf Config.ref8 .prelude = some (.tbl8 [0xFFFF]) := by decide

/-! ## Witnesses: capture -/

theorem witness_CaptureGateRefuses : (ref []).accepting = true ∧ recordWf (ref []).params = true ∧
    ¬ ((ref []).selftestOk = true ∧ (ref []).probeOk = true ∧ (ref []).cfgValid = true) ∧
    (checked Config.ref8 []).accepting = true ∧ (checked Config.ref8 []).selftestOk = true ∧
    (checked Config.ref8 []).probeOk = true ∧ (checked Config.ref8 []).cfgValid = true := by decide

/-- A frame of P_CAP bytes from IDLE. -/
theorem witness_CaptureCompletes :
    let s := checked Config.ref8 [wrote, wrote, gave 0x08, gave 0x40, gave 0, gave 0, .ok []]
    s.accepting = true ∧ recordWf s.params = true ∧ s.gateOpen = true ∧ s.bus = none ∧ s.buf.wf = true ∧
    s.obuf.wf = true ∧ pollIndex s = 2 ∧ s.allOk 7 = true ∧ captureDone s.params (s.answerByte 2 0) = true ∧
    lengthAt s 3 = 64 ∧ lengthFits s.params 64 := by decide

/-- The shortest raw frame, and a push frame longer than BUF. -/
theorem witness_CaptureCompletes_options :
    lengthFits raw16 64 ∧ lengthFits { Config.ref8 with push := true } 65 ∧
    pollIndex { checked { Config.ref8 with continuous := true } [] with cfsm := .cleared } = 1 := by decide

/-- A limit of two, and a limit of one. -/
theorem witness_ClearPollKeepsCapturing :
    let s := fun k => checked { Config.ref8 with pollLimit := some k } [wrote, wrote, gave 0x00]
    (s 2).accepting = true ∧ recordWf (s 2).params = true ∧ (s 2).gateOpen = true ∧ (s 2).allOk 3 = true ∧
    captureDone (s 2).params ((s 2).answerByte 2 0) = false ∧ (s 2).params.pollLimit ≠ some 1 ∧
    (s 1).accepting = true ∧ recordWf (s 1).params = true ∧ (s 1).gateOpen = true ∧ (s 1).allOk 3 = true ∧
    captureDone (s 1).params ((s 1).answerByte 2 0) = false ∧ (s 1).params.pollLimit = some 1 := by decide

theorem witness_polling : polling (waiting Config.ref8 [gave 0]) := by decide

theorem witness_DonePollCompletesCapture :
    let s := waiting Config.ref8 [gave 0x08, gave 0x40, gave 0, gave 0, .ok []]
    polling s ∧ s.buf.wf = true ∧ s.obuf.wf = true ∧ s.allOk 5 = true ∧
    captureDone s.params (s.answerByte 0 0) = true ∧ lengthFits s.params (lengthAt s 1) := by decide

/-- The last poll under the limit, and the poll that reaches it. -/
theorem witness_PollLimitStalls :
    let p := { Config.ref8 with pollLimit := some 2 }
    polling (waiting p [gave 0]) ∧ (waiting p [gave 0]).saysOk 0 = true ∧
    captureDone p ((waiting p [gave 0]).answerByte 0 0) = false ∧ (waiting p [gave 0]).pollCnt + 1 < 2 ∧
    polling { waiting p [gave 0] with pollCnt := 1 } ∧ 2 ≤ ({ waiting p [gave 0] with pollCnt := 1 } : State).pollCnt + 1 := by
  decide

theorem witness_UnboundedPollingNeverEnds :
    let s := waiting Config.ref8 [gave 0, gave 0xF7]
    polling s ∧ s.params.pollLimit = none ∧ s.allOk 2 = true ∧
    ∀ j, j < 2 → captureDone s.params (s.answerByte j 0) = false := by decide

theorem witness_StuckCommandNeverEnds :
    let s := { waiting Config.ref8 [] with bus := none, csN := false, reply := .never }
    recordWf s.params = true ∧ s.clear = true ∧ s.busy = true ∧ s.reply = .never := by decide

/-- No outcome of T1, of the poll, of the burst and of the re-clear, in push mode; and from a later poll. -/
theorem witness_StuckCommandNeverEnds_capture :
    let p := { Config.ref8 with continuous := true, push := true }
    let s := checked p (frameAnswers [1, 2] ++ [.noOutcome])
    let b := checked p [wrote, wrote, gave 0x08, gave 2, gave 0, gave 0, .noOutcome]
    let w := waiting p [gave 0x08, gave 2, gave 0, gave 0, .ok [1, 2], .noOutcome]
    s.accepting = true ∧ recordWf p = true ∧ s.gateOpen = true ∧ pollIndex s = 2 ∧
    (startTransactions s ++ finishTransactions p (lengthAt s 3)).length = 8 ∧ lengthFits p (lengthAt s 3) ∧
    (checked p [.noOutcome]).saysNothing 0 = true ∧ (checked p [wrote, wrote, .noOutcome]).allOk 2 = true ∧
    (checked p [wrote, wrote, .noOutcome]).saysNothing 2 = true ∧ captureDone p (s.answerByte 2 0) = true ∧
    b.allOk 6 = true ∧ b.saysNothing 6 = true ∧ s.allOk 7 = true ∧ s.saysNothing 7 = true ∧
    polling w ∧ (finishTransactions p (lengthAt w 1)).length = 6 ∧ w.allOk 5 = true ∧ w.saysNothing 5 = true ∧
    captureDone p (w.answerByte 0 0) = true ∧ lengthFits p (lengthAt w 1) := by decide

/-- No outcome of the write of a prelude, and of the second read; and of the last write of a mode's table. -/
theorem witness_StuckCommandNeverEnds_playback :
    (checked prelude8 [.noOutcome]).accepting = true ∧ recordWf prelude8 = true ∧ (checked prelude8 []).bus = none ∧
    (writes prelude8.probePrelude).length = 1 ∧ (checked prelude8 [.noOutcome]).saysNothing 0 = true ∧
    (checked prelude8 [wrote, gave 0x26, .noOutcome]).allOk 2 = true ∧
    (checked prelude8 [wrote, gave 0x26, .noOutcome]).saysNothing 2 = true ∧
    (ref [wrote, .noOutcome]).accepting = true ∧ (ref [wrote, .noOutcome]).bus = none ∧
    tableOf (ref []).params (.mode 0x02) = some (.tbl8 [0xFF01, 0x1280, 0xFFFF]) ∧
    (writes (.tbl8 [0xFF01, 0x1280, 0xFFFF])).length = 2 ∧ (ref [wrote, .noOutcome]).allOk 1 = true ∧
    (ref [wrote, .noOutcome]).saysNothing 1 = true := by decide

theorem witness_OverlongFrameRefused :
    let s := checked Config.ref8 [wrote, wrote, gave 0x08, gave 0x41, gave 0, gave 0]
    let w := waiting Config.ref8 [gave 0x08, gave 0x41, gave 0, gave 0]
    s.accepting = true ∧ recordWf s.params = true ∧ s.gateOpen = true ∧ s.params.push = false ∧ pollIndex s = 2 ∧
    s.allOk 6 = true ∧ captureDone s.params (s.answerByte 2 0) = true ∧ s.params.cap < (lengthAt s 3).toNat ∧
    polling w ∧ w.params.push = false ∧ w.allOk 4 = true ∧ captureDone w.params (w.answerByte 0 0) = true ∧
    w.params.cap < (lengthAt w 1).toNat := by decide

theorem witness_ShortFrameRefused :
    let s := checked raw16 [wrote, wrote, gave 0x08, gave 0x3F, gave 0, gave 0]
    let w := waiting raw16 [gave 0x08, gave 0x3F, gave 0, gave 0]
    s.accepting = true ∧ recordWf s.params = true ∧ s.gateOpen = true ∧ s.params.raw = true ∧ pollIndex s = 2 ∧
    s.allOk 6 = true ∧ captureDone s.params (s.answerByte 2 0) = true ∧
    (lengthAt s 3).toNat < s.params.n * s.params.n ∧
    polling w ∧ w.params.raw = true ∧ w.allOk 4 = true ∧ captureDone w.params (w.answerByte 0 0) = true ∧
    (lengthAt w 1).toNat < w.params.n * w.params.n := by decide

/-- T1 fails; the last length read fails; the burst fails; the re-clear fails; the same from a later poll. -/
theorem witness_CaptureBusError :
    let p := { Config.ref8 with continuous := true }
    let s := fun last => checked p (frameAnswers [1, 2] ++ last)
    let w := waiting p [gave 0x08, gave 2, gave 0, gave 0, .ok [1, 2], failed]
    let xs := startTransactions (s []) ++ finishTransactions p 2
    (s [failed]).accepting = true ∧ recordWf p = true ∧ (s [failed]).gateOpen = true ∧ (s [failed]).buf.wf = true ∧
    pollIndex (s [failed]) = 2 ∧ lengthAt (s [failed]) 3 = 2 ∧ lengthFits p 2 ∧
    captureDone p ((s [failed]).answerByte 2 0) = true ∧
    xs[0]? = some (.dbWr 0x04 0x01) ∧ (checked p [failed]).saysErr 0 = true ∧
    xs[5]? = some (.dbRd 0x44) ∧ (checked p [wrote, wrote, gave 0x08, gave 2, gave 0, failed]).allOk 5 = true ∧
    (checked p [wrote, wrote, gave 0x08, gave 2, gave 0, failed]).saysErr 5 = true ∧
    xs[6]? = some (.dbBurst 2) ∧ (checked p [wrote, wrote, gave 0x08, gave 2, gave 0, gave 0, failed]).allOk 6 = true ∧
    (checked p [wrote, wrote, gave 0x08, gave 2, gave 0, gave 0, failed]).saysErr 6 = true ∧
    xs[7]? = some (.dbWr 0x04 0x01) ∧ (s [failed]).allOk 7 = true ∧ (s [failed]).saysErr 7 = true ∧
    polling w ∧ w.buf.wf = true ∧ lengthAt w 1 = 2 ∧ (finishTransactions p 2)[5]? = some (.dbWr 0x04 0x01) ∧
    w.allOk 5 = true ∧ w.saysErr 5 = true := by decide

theorem witness_CaptureFailureReturnsToIdle :
    (∃ t, (checked Config.ref8 [failed]).accepting = true ∧ recordWf Config.ref8 = true ∧
      (checked Config.ref8 [failed]).gateOpen = true ∧ exec .capture (checked Config.ref8 [failed]) = .next t ∧
      t.busy = false ∧ t.status ≠ okCode) ∧
    ∃ t, polling (waiting Config.ref8 [failed]) ∧ step (waiting Config.ref8 [failed]) = .next t ∧ t.busy = false ∧
      t.status ≠ okCode :=
  ⟨⟨_, rfl, by decide, rfl, rfl, rfl, by decide⟩, ⟨_, by decide, rfl, rfl, by decide⟩⟩

theorem witness_CaptureFrame : (∃ t, exec .capture (checked Config.ref8 [failed]) = .next t) ∧
    (∃ t, polling (waiting Config.ref8 [failed]) ∧ step (waiting Config.ref8 [failed]) = .next t) ∧
    Config.ref8.raw = false ∧ Config.ref8.push = false := ⟨⟨_, rfl⟩, ⟨_, by decide, rfl⟩, rfl, rfl⟩

/-! ## Witnesses: whole-machine rules, reconstruction, the host interface -/

theorem witness_OnlyCaptureMovesCfsm : Instr.selftest ≠ .capture ∧
    (∃ t, exec .selftest (ref [wrote, gave 0x55]) = .next t) ∧ (playing 0x02 0 .run [wrote]).busy = true ∧
    (playing 0x02 0 .run [wrote]).bus = none ∧ ∃ t, step (playing 0x02 0 .run [wrote]) = .next t :=
  ⟨by decide, ⟨_, rfl⟩, rfl, rfl, _, rfl⟩

/-- An instruction that is no SELFTEST; steps of a PROBE, of a CONFIGURE and of a polling capture. -/
theorem witness_FlagsWrittenOnlyByTheirCommand : Instr.reconstruct ≠ .selftest ∧
    (∃ t, exec .reconstruct State.reset = .next t) ∧ (probing (ref [gave 0x26, gave 0x42])).seqTbl = .prelude ∧
    (∃ t, step (probing (ref [gave 0x26, gave 0x42])) = .next t) ∧ (playing 0x02 2 .run []).seqTbl ≠ .prelude ∧
    (∃ t, step (playing 0x02 2 .run []) = .next t) ∧ (waiting Config.ref8 [failed]).seqState = .idle ∧
    ∃ t, step (waiting Config.ref8 [failed]) = .next t :=
  ⟨by decide, ⟨_, rfl⟩, rfl, ⟨_, rfl⟩, by decide, ⟨_, rfl⟩, rfl, _, rfl⟩

theorem witness_EndedCommandReportsOneStatus : isHostCommand (.cread 0x0A) = true ∧ (ref [failed]).accepting = true ∧
    (∃ t, exec (.cread 0x0A) (ref [failed]) = .next t ∧ t.busy = false ∧ t.status ≠ okCode) ∧
    (∃ t, exec (.cread 0x0A) (ref [.noOutcome]) = .next t ∧ t.busy = true) ∧
    (∃ t, step (playing 0x02 0 .run [failed]) = .next t ∧ t.busy = false ∧ t.status ≠ okCode) ∧
    ∃ t, step (playing 0x02 0 .run [wrote]) = .next t ∧ t.busy = true :=
  ⟨rfl, rfl, ⟨_, rfl, rfl, by decide⟩, ⟨_, rfl, rfl⟩, ⟨_, rfl, rfl, by decide⟩, ⟨_, rfl, rfl⟩⟩

theorem witness_CommandWhileBusyStopsBlock : isHostCommand .state = true ∧ recordWf (waiting Config.ref8 []).params = true ∧
    (waiting Config.ref8 []).fault = [] ∧ (waiting Config.ref8 []).busy = true := by decide

theorem witness_EarlyCommandStopsBlock :
    (let s := { waiting Config.ref8 [] with host := [.command [0x06] (some 0)] }
     recordWf s.params = true ∧ s.Inv ∧ s.fault = [] ∧ s.busy = true) ∧
    let s := { ref [gave 7] with host := [.command [0x06] (some 2)] }
    s.fault = [] ∧ s.busy = false ∧ s.saysOk 0 = true :=
  ⟨⟨by decide, waiting_inv _ _ rfl, rfl, rfl⟩, rfl, rfl, rfl⟩

/-- A BUF that holds the mosaic exactly, one that is a byte too small, and the last pixel. -/
theorem witness_ReconstructPixels :
    let p := { Config.ref8 with cap := 16 }; let q := { Config.ref8 with cap := 15 }
    (State.resetWith p [] []).accepting = true ∧ recordWf p = true ∧ recordWf q = true ∧
    (State.resetWith p [] []).obuf.wf = true ∧ p.n * p.n ≤ p.cap ∧ q.cap < q.n * q.n ∧ 1 < p.t := by decide

theorem witness_ReconstructStaysInMosaic : recordWf raw16 = true ∧ 1 < raw16.t := by decide

theorem witness_StateWordFields : { checked Config.ref8 [] with lenValid := true }.accepting = true := by decide

theorem witness_IllegalCommandChangesOnlyResult : State.reset.accepting = true := by decide

end Sys2Proof.Tests
end

section
/-! SUPPORT. The statements about the capture state machine (42_capture_fsm.md): the length its FIFO reports, and its
gate. -/

namespace Sys2Proof.Machine

/-! ## The FIFO length (R46, R106) -/

/-- Three fields that do not overlap: joining them by `|||` is adding them up. -/
theorem shiftLeft_or_bytes {h m l : Nat} (hm : m < 256) (hl : l < 256) :
    h <<< 16 ||| m <<< 8 ||| l = h * 65536 + m * 256 + l := by
  have hlow : m <<< 8 + l < 2 ^ 16 := by rw [Nat.shiftLeft_eq]; omega
  calc h <<< 16 ||| m <<< 8 ||| l
      = h <<< 16 ||| (m <<< 8 ||| l) := Nat.or_assoc ..
    _ = h <<< 16 + (m <<< 8 + l) := by
      rw [← Nat.shiftLeft_add_eq_or_of_lt (i := 8) hl, ← Nat.shiftLeft_add_eq_or_of_lt hlow]
    _ = h * 65536 + m * 256 + l := by rw [Nat.shiftLeft_eq, Nat.shiftLeft_eq, Nat.add_assoc]

/-- A byte moved up in 23 bits, where the shift loses none of its bits. -/
theorem toNat_setWidth_shiftLeft {b : Byte} {k : Nat} (h : b.toNat * 2 ^ k < 2 ^ 23) :
    (b.setWidth 23 <<< k).toNat = b.toNat <<< k := by
  rw [BitVec.toNat_shiftLeft, BitVec.toNat_setWidth_of_le (by decide), Nat.shiftLeft_eq, Nat.mod_eq_of_lt h]

/-- The rule's own expression (R106): in 23 bits no shift loses a bit. -/
theorem fifoLength_toNat_or (l1 l2 l3 : Byte) :
    (fifoLength l1 l2 l3).toNat = ((l3.toNat &&& 0x7F) <<< 16 ||| l2.toNat <<< 8 ||| l1.toNat) &&& 0x7FFFFF := by
  have hmask : (l3 &&& 0x7F).toNat = l3.toNat &&& 0x7F := BitVec.toNat_and ..
  have hle : l3.toNat &&& 0x7F ≤ 0x7F := Nat.and_le_right
  have h3 : ((l3 &&& 0x7F).setWidth 23 <<< 16).toNat = (l3.toNat &&& 0x7F) <<< 16 := by
    rw [toNat_setWidth_shiftLeft (by rw [hmask]; omega), hmask]
  rw [fifoLength, BitVec.toNat_and, BitVec.toNat_or, BitVec.toNat_or, h3, toNat_setWidth_shiftLeft (by omega),
    BitVec.toNat_setWidth_of_le (by decide), show (0x7FFFFF : Count).toNat = 0x7FFFFF from rfl]

theorem fifoLength_toNat (l1 l2 l3 : Byte) :
    (fifoLength l1 l2 l3).toNat = l3.toNat % 128 * 65536 + l2.toNat * 256 + l1.toNat := by
  rw [fifoLength_toNat_or, shiftLeft_or_bytes l2.isLt l1.isLt, Nat.and_two_pow_sub_one_eq_mod _ 7,
    Nat.and_two_pow_sub_one_eq_mod _ 23]
  omega

/-- The length reads the third byte under its mask only. -/
theorem fifoLength_or_bit7 (l1 l2 l3 : Byte) : fifoLength l1 l2 (l3 ||| 0x80) = fifoLength l1 l2 l3 := by
  have hmask : (l3 ||| 0x80) &&& 0x7F = l3 &&& 0x7F := by
    rw [BitVec.and_or_distrib_right]; simp
  rw [fifoLength, fifoLength, hmask]

/-- Settles O39: the masked third byte and the two others do not overlap, so the rule's expression adds them up. -/
theorem fifoLengthIsTwentyThreeBits : Obligations.FifoLengthIsTwentyThreeBits := fun l1 l2 l3 =>
  ⟨fifoLength_toNat_or l1 l2 l3, fifoLength_toNat l1 l2 l3, Nat.le_of_lt_succ (fifoLength l1 l2 l3).isLt,
    fifoLength_or_bit7 l1 l2 l3⟩

/-! ## The capture gate (R101) -/

/-- A closed gate refuses at once: the response, and nothing else (R101, R136). -/
theorem capture_gateClosed {s : State} (hc : s.clear = true) (hg : s.gateOpen = false) :
    capture s = s.setResponse notReady 0 0 := by
  rw [capture, hg, if_neg Bool.false_ne_true]
  exact respond_clear s notReady 0 0 hc

/-- The command has not ended in NOT_READY: it runs on, or it has ended in another status. -/
def State.notRefused (s : State) : Prop := s.busy = false → s.status ≠ notReady

theorem notRefused_of_busy {s : State} (hb : s.busy = true) : s.notRefused := by simp [State.notRefused, hb]

/-- A response with another code, of a command that runs: it is given, or the host breaks in and BUSY stays 1. -/
theorem respond_notRefused {s : State} {code : Byte} (hcode : code ≠ notReady) (len : Count) (data : BitVec 32)
    (hb : s.busy = true) : (s.respond code len data).notRefused := by
  rw [State.respond]
  rcases inTurn_cases (fun h => h.setResponse code len data) s with ⟨_, -, -, e⟩ | ⟨_, _, -, -, -, e⟩
  · rw [e]; exact fun _ => hcode
  · rw [e]; exact notRefused_of_busy hb

theorem abort_notRefused {code : Byte} (hcode : code ≠ notReady) {s : State} (hb : s.busy = true) :
    (abort code s).notRefused := respond_notRefused hcode 0 0 hb

/-- What follows a transaction of a capture: BUS_ERROR, or the next stage, or nothing (R11, R111). -/
theorem onReply_notRefused {s : State} {ok : Byte → State → State} (hb : s.busy = true)
    (hok : ∀ v, s.busy = true → (ok v s).notRefused) : (onReply s (abort busError) ok).notRefused := by
  unfold onReply
  split
  · exact hok _ hb
  · exact abort_notRefused (by decide) hb
  · exact notRefused_of_busy hb
  · exact notRefused_of_busy hb

/-! The stages of a capture, the last one first: from a running command, none ends in NOT_READY. -/

section
variable {s : State} (hb : s.busy = true)
include hb

theorem dbRead_busy (a : DbAddr) : (dbRead a s).busy = true := (dbRead_transacts a s).busy.trans hb

theorem fifoControl_busy (v : Byte) : (fifoControl v s).busy = true := (dbWrite_transacts _ v s).busy.trans hb

theorem dbBurst_busy (n : Count) (dst : BurstDst) : (dbBurst n dst s).busy = true :=
  (dbBurst_transacts n dst s).busy.trans hb

theorem inTurn_busy {action : State → State} (h : ∀ b, b.busy = true → (action b).busy = true) :
    (inTurn action s).busy = true := by
  rcases inTurn_cases action s with ⟨_, -, -, e⟩ | ⟨_, _, -, -, -, e⟩
  · rw [e]; exact h _ hb
  · rw [e]; exact hb

theorem pushHeader_busy : (pushHeader s).busy = true := by
  unfold pushHeader
  split
  · exact inTurn_busy hb fun _ h => h
  · exact hb

theorem captureEnd_notRefused : (captureEnd s).notRefused := by
  unfold captureEnd
  split
  · exact respond_notRefused (by decide) _ _ (inTurn_busy hb fun _ h => h)
  · exact respond_notRefused (by decide) _ _ hb

theorem afterDrain_notRefused : (afterDrain s).notRefused := by
  unfold afterDrain
  split
  · exact onReply_notRefused (fifoControl_busy hb _) fun _ hd => captureEnd_notRefused hd
  · exact captureEnd_notRefused hb

theorem drain_notRefused : (drain s).notRefused :=
  onReply_notRefused (dbBurst_busy (pushHeader_busy hb) _ _) fun _ hd => afterDrain_notRefused hd

theorem lengthChecks_notRefused : (lengthChecks s).notRefused := by
  unfold lengthChecks
  split
  · exact abort_notRefused (by decide) hb
  · split
    · exact abort_notRefused (by decide) hb
    · exact drain_notRefused hb

theorem readLength_notRefused : (readLength s).notRefused :=
  onReply_notRefused (dbRead_busy hb _) fun _ h1 => onReply_notRefused (dbRead_busy h1 _) fun _ h2 =>
    onReply_notRefused (dbRead_busy h2 _) fun _ h3 => lengthChecks_notRefused h3

theorem pollLimitStep_notRefused : (pollLimitStep s).notRefused := by
  unfold pollLimitStep
  split
  · exact notRefused_of_busy hb
  · split
    · exact abort_notRefused (by decide) hb
    · exact notRefused_of_busy hb

theorem pollRead_notRefused (v : Byte) : (pollRead v s).notRefused := by
  unfold pollRead
  split
  · exact readLength_notRefused hb
  · exact pollLimitStep_notRefused hb

theorem poll_notRefused : (poll s).notRefused :=
  onReply_notRefused (dbRead_busy hb _) fun v hr => pollRead_notRefused hr v

theorem startCapture_notRefused : (startCapture s).notRefused :=
  onReply_notRefused (fifoControl_busy hb _) fun _ hd => poll_notRefused hd

theorem clearFifo_notRefused : (clearFifo s).notRefused := by
  unfold clearFifo
  split
  · exact onReply_notRefused (fifoControl_busy hb _) fun _ hd => startCapture_notRefused hd
  · exact startCapture_notRefused hb

/-- With the gate open CAPTURE goes on to its transitions, and NOT_READY is the gate's own status (R101). -/
theorem capture_gateOpen_notRefused (hg : s.gateOpen = true) : (capture s).notRefused := by
  rw [capture, if_pos hg]
  exact clearFifo_notRefused hb

end

theorem gateOpen_iff (s : State) :
    s.gateOpen = true ↔ s.selftestOk = true ∧ s.probeOk = true ∧ s.cfgValid = true := by
  simp [State.gateOpen, and_assoc]

/-- On a well-formed record CAPTURE of an accepting block is its own course (R100, R7). -/
theorem exec_capture_wf {s : State} (hacc : s.accepting = true) (hwf : recordWf s.params = true) :
    exec .capture s = .next (capture s.begin) := by
  rw [exec_capture hacc, (recordFacts hwf).rawInRange, if_neg Bool.false_ne_true]

/-- Settles O40: a closed gate answers with the response alone; past an open one, every stage of CAPTURE ends in a status
of its own, or not at all. -/
theorem captureGateRefuses : Obligations.CaptureGateRefuses := by
  intro s hacc hwf
  rw [← gateOpen_iff, exec_capture_wf hacc hwf]
  constructor
  · intro hg
    obtain ⟨-, hidle, -⟩ := (accepting_iff s).mp hacc
    rw [capture_gateClosed (At.start hacc).clear (Bool.eq_false_of_not_eq_true hg)]
    simp only [State.setResponse, State.begin, hidle]
  · intro hg
    exact ⟨_, rfl, capture_gateOpen_notRefused rfl hg⟩

end Sys2Proof.Machine
end

section
/-! SUPPORT. The statements about the self-test (43_selftest.md): the probe's verdict on the two identity bytes. -/

namespace Sys2Proof.Machine

/-- The low identity bytes of the known parts, one by one (R6, R8). -/
theorem mem_idLowSet_iff (l : Byte) : l ∈ idLowSet ↔ l = 0x40 ∨ l = 0x41 ∨ l = 0x42 := by
  simp only [idLowSet, List.mem_cons, List.not_mem_nil, or_false]

/-- The verdict as a proposition, in the names of the spec's two constants (R115). -/
theorem probePass_iff (h l : Byte) : probePass h l = true ↔ h = idHigh ∧ l ∈ idLowSet := by
  rw [probePass, Bool.and_eq_true, beq_iff_eq, List.contains_iff_mem]

/-- Settles O26: the two constants written out, on every pair of bytes. -/
theorem probePassesExactlyOnKnownIds : Obligations.ProbePassesExactlyOnKnownIds := by
  intro h l
  rw [probePass_iff, mem_idLowSet_iff, idHigh]

end Sys2Proof.Machine
end

section
/-! SUPPORT. The statements about the reconstruction (44_reconstruct.md): where in the mosaic its indices lie. -/

namespace Sys2Proof.Machine

/-- The crop offset is exact: the same margin stands on both sides of the crop (R7, R117). -/
theorem RecordFacts.cropOffset_centres {p : Params} (h : RecordFacts p) :
    2 * cropOffset p + p.t = p.n / 2 := by
  obtain ⟨-, hfits, heven⟩ := h.crop
  unfold cropOffset planeSide
  omega

/-- The column of the mosaic that pixel (r, c) of the crop copies (R121). -/
def sourceColumn (p : Params) (r c : Nat) : Nat := 2 * (c + cropOffset p) + (r + cropOffset p + 1) % 2

theorem sourceIndex_rowMajor (p : Params) (r c : Nat) :
    sourceIndex p r c = (r + cropOffset p) * p.n + sourceColumn p r c :=
  Nat.add_assoc ..

/-- The row read lies in the plane's rows (R122). -/
theorem RecordFacts.sourceRow_lt {p : Params} (h : RecordFacts p) {r : Nat} (hr : r < p.t) :
    r + cropOffset p < p.n / 2 := by
  have := h.cropOffset_centres
  omega

/-- The column read lies in the mosaic's columns (R122). -/
theorem RecordFacts.sourceColumn_lt {p : Params} (h : RecordFacts p) (r : Nat) {c : Nat} (hc : c < p.t) :
    sourceColumn p r c < p.n := by
  have := h.cropOffset_centres
  unfold sourceColumn
  omega

/-- Every index read lies in the upper half of the mosaic (R122). -/
theorem RecordFacts.sourceIndex_lt {p : Params} (h : RecordFacts p) {r c : Nat} (hr : r < p.t) (hc : c < p.t) :
    sourceIndex p r c < p.n / 2 * p.n := by
  rw [sourceIndex_rowMajor, Nat.mul_comm (r + _)]
  exact Nat.mul_add_lt_mul_of_lt_of_lt (h.sourceRow_lt hr) (h.sourceColumn_lt r hc)

/-- Settles O58: row and column bounds put each index in the mosaic's upper half; the steps of the rule's bound follow from
the crop's exact centring. -/
theorem reconstructStaysInMosaic : Obligations.ReconstructStaysInMosaic := by
  intro p r c hwf hr hc
  have h := recordFacts hwf
  have hupper := h.sourceIndex_lt hr hc
  have hmosaic : sourceIndex p r c < p.n * p.n :=
    hupper.trans_le (Nat.mul_le_mul_right _ (Nat.div_le_self ..))
  have hcentre := h.cropOffset_centres
  refine ⟨hmosaic, hupper, ?rowLargest, ?rowInPlane, ?columnLargest, ?columnValue, ?columnInMosaic,
    hmosaic.trans_le⟩
  case rowInPlane => exact h.sourceRow_lt (by omega)
  all_goals omega

end Sys2Proof.Machine
end

section
/-! SUPPORT. The statements about the host command interface (45_host_interface.md): the command that comes too early, and
the one that is no command. -/

namespace Sys2Proof.Machine

/-- A faulted block on a well-formed record takes no step (R15, R127). -/
theorem step_faulted {s : State} (hwf : recordWf s.params = true) (hf : s.fault ≠ []) :
    step s = .fault .busyViolation := by
  rw [step, fetch, if_pos hwf, if_neg hf, runFetched]

/-- In an unfaulted block BUSY_VIOLATION is the only fault recorded, and nothing else but the reply is written (R127). -/
theorem busyViolation_unfaulted {s : State} (hf : s.fault = []) :
    s.busyViolation = { s with fault := [.busyViolation], reply := .never } := by
  simp [State.busyViolation, hf]

/-- Settles O55: every host command stands behind `accept`, which lets none past a busy block; the fault it records halts
the next step. -/
theorem commandWhileBusyStopsBlock : Obligations.CommandWhileBusyStopsBlock := by
  intro i s hi hwf hf hb
  obtain ⟨course, hcourse⟩ := hostCommand_accept i hi
  refine ⟨s.busyViolation, ?recorded, busyViolation_unfaulted hf, step_faulted hwf (busyViolation_fault_ne s)⟩
  rw [hcourse, accept_busy course s hf hb]

/-- Settles O60: the command's course is its response alone, and BUSY falls with it to where it stood before. -/
theorem illegalCommandChangesOnlyResult : Obligations.IllegalCommandChangesOnlyResult := by
  intro bytes s hacc
  obtain ⟨-, hidle, -⟩ := (accepting_iff s).mp hacc
  rw [exec_hostIllegal hacc, raise, respond_clear _ _ _ _ (At.start hacc).clear]
  simp only [State.setResponse, State.begin, hidle]

end Sys2Proof.Machine
end

section
/-! SUPPORT. The statements about the encodings (30_encoding.md): the decoder and the encoder are inverse to each other. -/

namespace Sys2Proof

open Sys2Proof.Machine

/-! ## Control-bus addresses (R49, R67, R68) -/

/-- An address that fits a width of 8 bits is its low byte. -/
theorem shortAddr_addrLo {p : Params} {a : CbAddr} (hw : p.addrW = 8) (h : addrFits p a = true) :
    shortAddr (addrLo a) = a := by
  refine short_split a ?_
  simpa [addrFits, hw] using h

theorem addrHi_joinAddr (h l : Byte) : addrHi (joinAddr h l) = h := by
  apply BitVec.eq_of_toNat_eq
  simp only [addrHi, joinAddr, BitVec.toNat_setWidth, BitVec.toNat_ushiftRight]
  erw [BitVec.toNat_append]
  rw [← Nat.shiftLeft_add_eq_or_of_lt l.isLt, Nat.shiftLeft_eq, Nat.shiftRight_eq_div_pow]
  omega

theorem addrLo_joinAddr (h l : Byte) : addrLo (joinAddr h l) = l := by
  apply BitVec.eq_of_toNat_eq
  simp only [addrLo, joinAddr, BitVec.toNat_setWidth]
  erw [BitVec.toNat_append]
  rw [← Nat.shiftLeft_add_eq_or_of_lt l.isLt, Nat.shiftLeft_eq]
  omega

theorem addrLo_shortAddr (a : Byte) : addrLo (shortAddr a) = a := by
  apply BitVec.eq_of_toNat_eq
  simp [addrLo, shortAddr]

/-- The three bytes of a DBURST count are read back (R69). -/
theorem count_bytes (b0 b1 b2 : Byte) :
    (joinCount b0 b1 b2 >>> 16).setWidth 8 = b0 ∧ (joinCount b0 b1 b2 >>> 8).setWidth 8 = b1 ∧
      (joinCount b0 b1 b2).setWidth 8 = b2 := by
  have hcount : (joinCount b0 b1 b2).toNat = (b0.toNat * 256 + b1.toNat) * 256 + b2.toNat := by
    rw [joinCount]
    erw [BitVec.toNat_append, BitVec.toNat_append]
    rw [← Nat.shiftLeft_add_eq_or_of_lt b1.isLt, ← Nat.shiftLeft_add_eq_or_of_lt b2.isLt, Nat.shiftLeft_eq,
      Nat.shiftLeft_eq]
  refine ⟨?_, ?_, ?_⟩ <;> apply BitVec.eq_of_toNat_eq <;>
    simp only [BitVec.toNat_setWidth, BitVec.toNat_ushiftRight, hcount, Nat.shiftRight_eq_div_pow] <;> omega

/-! ## Decoding an encoding -/

/-- A control-bus command or frame gives its address back, in a block of either width. -/
theorem decode_encode_address {p : Params} (hp : RecordFacts p) (a : CbAddr) (v : Byte) (h : addrFits p a = true) :
    decode p (encode p (.cread a)) = .ok (.cread a) ∧ decode p (encode p (.cwrite a v)) = .ok (.cwrite a v) ∧
    decode p (encode p (.cbRead a)) = .ok (.cbRead a) ∧ decode p (encode p (.cbWrite a v)) = .ok (.cbWrite a v) := by
  rcases hp.width with hw | hw
  · simp [decode, encode, decodeHost, decodeCb, addrBytes, addrWire, hw, shortAddr_addrLo hw h]
  · simp [decode, encode, decodeHost, decodeCb, addrBytes, addrWire, hw, join_split]

/-- A data-bus address byte: bit 7 tells a write from a read, the other bits are the address (R66). -/
theorem dbAddr_wire (a : DbAddr) :
    (a.setWidth 8).toNat < 0x80 ∧ (a.setWidth 8).setWidth 7 = a ∧
    0x80 ≤ (a.setWidth 8 ||| 0x80 : Byte).toNat ∧ (a.setWidth 8 ||| 0x80 : Byte).setWidth 7 = a := by
  revert a; decide

/-- Decoding the encoding of a data-bus transaction gives it back (R66). -/
theorem decode_encode_dataBus (p : Params) (a : DbAddr) (v : Byte) (n : Count) (dst : BurstDst) :
    decode p (encode p (.dbRead a)) = .ok (.dbRead a) ∧ decode p (encode p (.dbWrite a v)) = .ok (.dbWrite a v) ∧
    decode p (encode p (.dbBurst n dst)) = .ok (.dbBurst n dst) := by
  obtain ⟨hread, hraddr, hwrite, hwaddr⟩ := dbAddr_wire a
  refine ⟨?_, ?_, ?_⟩
  · simp only [decode, encode, decodeDb, and_true, if_pos hread, hraddr]
  · simp only [decode, encode, decodeDb, and_true, if_pos hwrite, hwaddr]
  · simp only [decode, encode, decodeDb, true_and, if_pos n.isLt, BitVec.ofNat_toNat, BitVec.setWidth_eq]

/-- Settles O1: format by format, what the decoder pulls out of a form is what the encoder put there. -/
theorem decodeEncodeAgree : Obligations.DecodeEncodeAgree := by
  intro p i hp hi
  have hp := recordFacts hp
  cases i with
  | selftest | probe | configure m | capture | reconstruct | state | dread a | dwrite a v => rfl
  | dburst n => exact congrArg _ (congrArg _ (joinCount_split n))
  | hostIllegal bytes => exact congrArg _ (decodeHost_illegal _ _ (by simpa [Instr.wf] using hi))
  | cread a => exact (decode_encode_address hp a 0 hi).1
  | cwrite a v => exact (decode_encode_address hp a v hi).2.1
  | cbRead a => exact (decode_encode_address hp a 0 hi).2.2.1
  | cbWrite a v => exact (decode_encode_address hp a v hi).2.2.2
  | wr8 a v =>
    have hterm : ¬ (a = 0xFF ∧ v = 0xFF) := by
      simp only [Instr.wf, Bool.and_eq_true, Bool.not_eq_true', Bool.and_eq_false_imp, beq_iff_eq, beq_eq_false_iff_ne] at hi
      exact fun h => hi.2 h.1 h.2
    simp only [decode, encode, decodeTbl8, splitTbl8_pair a v hterm]
  | end8 => rfl
  | wr16 a v => simp only [decode, encode, decodeTbl16, splitTbl16_pair]
  | dbRead a => exact (decode_encode_dataBus p a 0 0 .buf).1
  | dbWrite a v => exact (decode_encode_dataBus p a v 0 .buf).2.1
  | dbBurst n dst => exact (decode_encode_dataBus p 0 0 n dst).2.2

/-! ## Encoding what was decoded -/

theorem byte_eq_of_toNat {b : Byte} {n : Nat} (h : b.toNat = n) : b = BitVec.ofNat 8 n := by
  rw [← h, BitVec.ofNat_toNat, BitVec.setWidth_eq]

/-- Settles O2: along the decoder's own cases, each legal command's bytes are what the encoder writes, and every other
list of bytes is kept by HOST_ILLEGAL. -/
theorem hostBytesReencode : Obligations.HostBytesReencode := by
  intro p bytes _
  cases bytes with
  | nil => rfl
  | cons op operands =>
    unfold decodeHost
    dsimp only
    split
    case h_13 b0 b1 b2 hop =>
      obtain ⟨h0, h1, h2⟩ := count_bytes b0 b1 b2
      rw [byte_eq_of_toNat hop, encode, h0, h1, h2]
      rfl
    case h_14 => rfl
    all_goals rename_i hop; rw [byte_eq_of_toNat hop]
    case h_7 a => split <;> simp_all [encode, addrBytes, addrLo_shortAddr]
    case h_8 h l => split <;> simp_all [encode, addrBytes, addrHi_joinAddr, addrLo_joinAddr]
    case h_9 a v => split <;> simp_all [encode, addrBytes, addrLo_shortAddr]
    case h_10 h l v => split <;> simp_all [encode, addrBytes, addrHi_joinAddr, addrLo_joinAddr]
    all_goals rfl

/-- A legal command decodes to a command of its own (R128). -/
theorem decodeHost_legal {w : Nat} {bytes : List Byte} (h : legalCommand w bytes = true) :
    decodeHost w bytes ≠ .hostIllegal bytes := by
  cases bytes with
  | nil => simp [legalCommand] at h
  | cons op operands =>
    unfold legalCommand hostOperands at h
    unfold decodeHost
    dsimp only at h ⊢
    split
    case h_14 =>
      simp only [beq_iff_eq] at h
      by_cases hw : w = 8
      all_goals
        simp only [hw, if_true, if_false] at h
        split at h
        all_goals simp_all [eq_comm (b := List.length _), List.length_eq_one_iff, List.length_eq_two, List.length_eq_three]
    all_goals simp_all

/-- Settles O3: the operand table and the decoder have the same legal commands. -/
theorem illegalCommandsAreTheRest : Obligations.IllegalCommandsAreTheRest := by
  intro w bytes
  refine ⟨fun h => ?_, decodeHost_illegal w bytes⟩
  by_contra hlegal
  exact decodeHost_legal (Bool.eq_true_of_not_eq_false hlegal) h

/-- Settles O4: the words are decoded by evaluation. -/
theorem specWordsDecode : Obligations.SpecWordsDecode := by
  unfold Obligations.SpecWordsDecode; decide

end Sys2Proof
end

section
/-! SUPPORT. The statements about reset and the parameter record (70_reset_and_hazards.md section 1, 00_scope.md R7). -/

namespace Sys2Proof.Machine

/-! ## The record, item by item (R7, R86) -/

/-- The items make the record. -/
theorem RecordFacts.recordWf {p : Params} (h : RecordFacts p) : recordWf p = true := by
  have hregs := h.regs
  have hraw : p.raw = false ∨ p.n * p.n ≤ p.cap := by
    cases hr : p.raw
    · exact .inl rfl
    · exact .inr (h.rawCap hr)
  have hpush : ¬ (p.raw = true ∧ p.push = true) := h.rawPush
  have hlimit : (match p.pollLimit with | some k => decide (1 ≤ k) | none => true) = true := by
    split
    · exact decide_eq_true (h.pollLimit _ ‹_›)
    · rfl
  simp only [Machine.recordWf, bridgeMapWf, List.all_cons, List.all_nil, id, Bool.and_true, Bool.and_eq_true,
    List.all_eq_true, List.contains_iff_mem, beq_iff_eq, bne_iff_ne, decide_eq_true_eq, Bool.or_eq_true,
    Bool.not_eq_true']
  simp only [List.forall_mem_cons] at hregs
  refine ⟨h.addrW, h.defaultMode, h.modeCode, h.nodup, h.tables, h.prelude, h.settle, ?_, h.capDone, h.side, h.crop,
    h.cropSize, h.capSize, hraw, ?_, hlimit, h.idHAddr, h.idLAddr⟩
  · simpa using hregs
  · simpa using hpush

theorem recordWf_iff (p : Params) : recordWf p = true ↔ RecordFacts p := ⟨recordFacts, RecordFacts.recordWf⟩

/-- The address width is that of the variant (R7). -/
theorem addrW_iff (p : Params) : (p.addrW = match p.variant with | .sensor8 => 8 | .sensor16 => 16) ↔
    (p.addrW = 8 ↔ p.variant = .sensor8) ∧ (p.addrW = 8 ∨ p.addrW = 16) := by
  cases p.variant <;> simp <;> omega

/-- An address fits in a width of 8 or 16 bits (R38). -/
theorem addrFits_iff {p : Params} (hw : p.addrW = 8 ∨ p.addrW = 16) (a : CbAddr) :
    addrFits p a = true ↔ a.toNat < 2 ^ p.addrW := by
  rcases hw with hw | hw
  · simp [addrFits, hw]
  · simpa [addrFits, hw] using a.isLt

/-- A mode code is no 0xFF. -/
theorem modeCode_iff (m : Byte) : m ≠ 0xFF ↔ m.toNat < 0xFF := by
  rw [Ne, ← BitVec.toNat_inj, show (0xFF : Byte).toNat = 0xFF from rfl]
  have := m.isLt
  omega

theorem writeCount_tbl16 (ws : List (BitVec 24)) : writeCount (.tbl16 ws) = ws.length := by
  rw [writeCount, RegisterTable.entries, List.takeWhile_eq_self_iff.mpr (by simp), List.length_map]

/-- A table is well formed: in its variant's format, with an end, and no longer than an index of 16 bits reaches (R86). -/
theorem tableWf_iff (v : Variant) (t : RegisterTable) : tableWf v t = true ↔
    (∃ ws, t = .tbl8 ws ∧ v = .sensor8 ∧ 0xFFFF ∈ ws ∧ writeCount t ≤ 65535) ∨
    (∃ ws, t = .tbl16 ws ∧ v = .sensor16 ∧ ws.length ≤ 65535) := by
  cases t with
  | tbl8 ws => cases v <;> simp [tableWf, playable, and_comm]
  | tbl16 ws => cases v <;> simp [tableWf, playable, writeCount_tbl16]

/-- Where no key is there twice, every entry is found by its key. -/
theorem lookup_of_mem_nodup {l : List (Byte × RegisterTable)} (hnodup : (l.map Prod.fst).Nodup)
    {e : Byte × RegisterTable} (he : e ∈ l) : l.lookup e.1 = some e.2 := by
  induction l with
  | nil => cases he
  | cons x l ih =>
    rw [List.map_cons, List.nodup_cons] at hnodup
    rw [List.lookup_cons]
    rcases List.mem_cons.mp he with rfl | he
    · simp
    · have hne : e.1 ≠ x.1 := fun h => hnodup.1 (h ▸ List.mem_map_of_mem he)
      simpa [beq_eq_false_iff_ne.mpr hne] using ih hnodup.2 he

/-- Every table is reached by its name, when no name is there twice (R28). -/
theorem tables_iff {p : Params} (hnodup : (modes p).Nodup) (P : RegisterTable → Prop) :
    (∀ r t, tableOf p r = some t → P t) ↔ (∀ e ∈ p.tables, P e.2) ∧ P p.probePrelude := by
  constructor
  · refine fun h => ⟨fun e he => h (.mode e.1) e.2 ?_, h .prelude _ rfl⟩
    exact lookup_of_mem_nodup hnodup he
  · rintro ⟨htables, hprelude⟩ (m | _) t ht
    · obtain ⟨a, b, hab, -⟩ := List.lookup_eq_some_iff.mp ht
      exact htables (m, t) (by rw [hab]; simp)
    · injection ht with ht
      exact ht ▸ hprelude

theorem settleMarkWf_iff (p : Params) (mark : TableRef × Nat) :
    settleMarkWf p mark = true ↔ ∃ t, tableOf p mark.1 = some t ∧ mark.2 < writeCount t := by
  unfold settleMarkWf
  split <;> simp_all

/-- Every settle mark names a write entry (R86). -/
theorem settle_iff (p : Params) : (∀ mark ∈ p.settle, settleMarkWf p mark = true) ↔
    ∀ r i, settleAfter p r i = true → ∃ t, tableOf p r = some t ∧ i < writeCount t := by
  simp only [settleMarkWf_iff, settleAfter, List.contains_iff_mem, Prod.forall]

theorem regs_iff (p : Params) :
    (∀ a ∈ [p.regFifo, p.regTrig, p.regLen1, p.regLen2, p.regLen3, p.regScratch], a.toNat ≤ 0x7F) ↔
    p.regFifo.toNat ≤ 0x7F ∧ p.regTrig.toNat ≤ 0x7F ∧ p.regLen1.toNat ≤ 0x7F ∧ p.regLen2.toNat ≤ 0x7F ∧
      p.regLen3.toNat ≤ 0x7F ∧ p.regScratch.toNat ≤ 0x7F ∧ (p.burstCmd &&& 0x7F).toNat ≤ 0x7F := by
  have : (p.burstCmd &&& 0x7F).toNat ≤ 0x7F := by rw [BitVec.toNat_and]; exact Nat.and_le_right
  simp only [List.forall_mem_cons, List.not_mem_nil, false_imp_iff, implies_true, and_true, this]

/-! ## A step on an ill-formed record (R7, R150) -/

theorem step_illFormed {s : State} (h : recordWf s.params = false) : step s = .refused .illFormedRecord := by
  simp [step, fetch, h, runFetched]

/-- A command refuses only where its own course does (R126). -/
theorem accept_ne_refused {c : State → Host.Outcome State Fault Refusal} {r : Refusal}
    (h : ∀ s, c s ≠ .refused r) (s : State) : accept c s ≠ .refused r := by
  unfold accept
  split
  · split
    · simp
    · dsimp only
      split
      · exact h _
      · simp
  · simp

/-- Every instruction has its meaning: none is refused (R70). -/
theorem exec_ne_refused (i : Instr) (s : State) (r : Refusal) : exec i s ≠ .refused r := by
  cases i with
  | selftest | probe | configure m | state | cread a | cwrite a v | dread a | dwrite a v | dburst n | hostIllegal b =>
    simp only [exec, execSelftest, execProbe, execConfigure, execState, execCread, execCwrite, execDread, execDwrite,
      execDburst, execHostIllegal]
    refine accept_ne_refused ?_ s
    exact fun _ => nofun
  | capture =>
    simp only [exec, execCapture]
    refine accept_ne_refused (fun s => ?_) s
    split <;> simp
  | reconstruct =>
    simp only [exec, execReconstruct]
    refine accept_ne_refused (fun s => ?_) s
    split
    · simp
    · split <;> simp
  | dbBurst n dst => simp only [exec, execDbBurst]; split <;> simp
  | wr8 a v | end8 | wr16 a v | dbRead a | dbWrite a v | cbWrite a v | cbRead a => exact nofun

theorem hostStore_ne_refused (b : HostBuffer) (i : Nat) (v : Byte) (s : State) (r : Refusal) :
    hostStore b i v s ≠ .refused r := by
  unfold hostStore
  split
  · simp
  · cases b <;> simp

theorem fetchHost_ne_refusal (s : State) (r : Refusal) : fetchHost s ≠ .refusal r := by
  unfold fetchHost
  split
  · simp
  · simp
  · split
    · simp
    · simp
    · exact absurd ‹_› (hostStore_ne_refused _ _ _ _ _)

theorem fetchEntry_ne_illFormed (s : State) : fetchEntry s ≠ .refusal .illFormedRecord := by
  unfold fetchEntry
  split
  · simp
  · split
    · simp
    · split
      · simp
      · split <;> simp

theorem fetchFrame_ne_illFormed (f : Encoded) (s : State) : fetchFrame f s ≠ .refusal .illFormedRecord := by
  unfold fetchFrame
  split <;> simp

/-- What is fetched on a well-formed record is not refused as ill formed. -/
theorem fetch_ne_illFormed {s : State} (h : recordWf s.params = true) : fetch s ≠ .refusal .illFormedRecord := by
  unfold fetch
  rw [if_pos h]
  split
  · split
    · simp
    · split
      · exact fetchFrame_ne_illFormed _ s
      · exact fetchEntry_ne_illFormed s
      · simp
      · exact fetchHost_ne_refusal s _
  · simp

theorem step_ne_illFormed {s : State} (h : recordWf s.params = true) : step s ≠ .refused .illFormedRecord := by
  unfold step runFetched
  split
  · split
    · simp
    · simp
    · rename_i hr
      exact absurd hr (exec_ne_refused _ _ _)
  · simp
  · simp
  · rename_i r hr
    intro heq
    injection heq with heq
    exact fetch_ne_illFormed h (heq ▸ hr)

/-- Settles O6: `recordWf` item by item, and the step refuses exactly where it fails. -/
theorem recordMustBeWellFormed : Obligations.RecordMustBeWellFormed := by
  refine ⟨fun s => ⟨step_illFormed, fun h => ?_⟩, fun p => ?_⟩
  · by_contra hwf
    exact step_ne_illFormed (Bool.eq_true_of_not_eq_false hwf) h
  rw [recordWf_iff, ← addrW_iff, ← settle_iff, ← regs_iff]
  simp only [← modeCode_iff, ← tableWf_iff]
  constructor
  · intro h
    refine ⟨h.addrW, ⟨h.defaultMode, h.modeCode⟩, ⟨fun r t => h.tableOf, h.settle⟩, h.regs, h.capDone, h.side, h.crop,
      h.cropSize, h.capSize, h.rawCap, h.rawPush, h.pollLimit, ?_, ?_, h.nodup⟩
    · exact (addrFits_iff h.width _).mp h.idHAddr
    · exact (addrFits_iff h.width _).mp h.idLAddr
  · rintro ⟨haddr, ⟨hdefault, hcode⟩, ⟨htables, hsettle⟩, hregs, hdone, hside, hcrop, hsize, hcap, hraw, hpush, hlimit,
      hidH, hidL, hnodup⟩
    have hwidth := ((addrW_iff p).mp haddr).2
    obtain ⟨hmodes, hprelude⟩ := (tables_iff hnodup _).mp htables
    exact ⟨haddr, hdefault, hcode, hnodup, hmodes, hprelude, hsettle, hregs, hdone, hside, hcrop, hsize, hcap, hraw,
      hpush, hlimit, (addrFits_iff hwidth _).mpr hidH, (addrFits_iff hwidth _).mpr hidL⟩

/-! ## Reset (R150) -/

/-- Settles O5: the values are those `State.resetWith` writes. -/
theorem resetValues : Obligations.ResetValues := by
  intro p buf obuf
  refine ⟨rfl, rfl, rfl, rfl, rfl, rfl, rfl, rfl, rfl, rfl, rfl, rfl, rfl, rfl, rfl, rfl, rfl, rfl, rfl, rfl, rfl, ?_⟩
  exact step_illFormed (s := State.resetWith p buf obuf)

/-- The invariant after reset: nothing runs, the buffers are the host's, and a poll limit is at least 1. -/
theorem resetWith_inv {p : Params} {buf obuf : Memory} (hp : recordWf p = true) (hbuf : buf.wf = true)
    (hobuf : obuf.wf = true) (hbufIn : buf.within p.cap = true) (hobufIn : obuf.within (p.t * p.t) = true) :
    (State.resetWith p buf obuf).Inv where
  bufWf := hbuf
  obufWf := hobuf
  bufWithin := hbufIn
  obufWithin := hobufIn
  restCfsm _ := .inl rfl
  restSeq _ := rfl
  csHigh := .inl rfl
  neverBusy h := nomatch h
  faultBusy h := absurd rfl h
  busPoll := .inl rfl
  seqRuns h := absurd rfl h
  seqCfsm h := absurd rfl h
  modeKnown := .inl rfl
  cfgMode h := nomatch h
  statusCode := .inl rfl
  pollBound k hk := (recordFacts hp).pollLimit k hk
  pollNone _ := rfl
  hostRange := rfl

/-- Settles O7: REF8 is a well-formed record, and `resetWith_inv` is for any. -/
theorem invariantAtReset : Obligations.InvariantAtReset :=
  ⟨resetWith_inv (by decide) rfl rfl rfl rfl, fun _ _ _ => resetWith_inv⟩

end Sys2Proof.Machine
end

section
/-! SUPPORT. What a step can do: its sources one by one, and the inversion of `step` that the statements about the whole
machine use. After it the statements about single steps. -/

namespace Sys2Proof.Machine

/-! ## The entries of a table (R89) -/

/-- The sequencer's action at an entry: a write, or the end of the table (R90 to R93). -/
def playEntry : Option (CbAddr × Byte) → State → State
  | some (a, v) => seqWrite a v
  | none => playEnd

/-- What playback finds at an index: an entry, or the end that a TBL16 table has at its length (R89, R93). -/
def tableEntry (t : RegisterTable) (pc : Nat) : Option (Option (CbAddr × Byte)) :=
  if atTableEnd t pc then some none else t.entries[pc]?

/-- Decoding the form at an index gives the entry's instruction, and executing it the entry's action. -/
theorem exec_formAt {p : Params} {t : RegisterTable} {pc : Nat} {f : Encoded} (hf : t.formAt pc = some f) :
    ∃ i e, decode p f = .ok i ∧ t.entries[pc]? = some e ∧ isHostCommand i = false ∧
      ∀ s, exec i s = .next (playEntry e s) := by
  cases t with
  | tbl8 ws =>
    simp only [RegisterTable.formAt, Option.map_eq_some_iff] at hf
    obtain ⟨w, hw, rfl⟩ := hf
    cases hsplit : splitTbl8 w with
    | none => exact ⟨.end8, none, by simp [decode, decodeTbl8, hsplit], by simp [RegisterTable.entries, hw, hsplit], rfl,
        fun _ => rfl⟩
    | some e => exact ⟨.wr8 e.1 e.2, some (shortAddr e.1, e.2), by simp [decode, decodeTbl8, hsplit],
        by simp [RegisterTable.entries, hw, hsplit], rfl, fun _ => rfl⟩
  | tbl16 ws =>
    simp only [RegisterTable.formAt, Option.map_eq_some_iff] at hf
    obtain ⟨w, hw, rfl⟩ := hf
    exact ⟨decodeTbl16 w, some (splitTbl16 w), rfl, by simp [RegisterTable.entries, hw], rfl, fun _ => rfl⟩

theorem formAt_eq_none_iff (t : RegisterTable) (pc : Nat) : t.formAt pc = none ↔ t.entries[pc]? = none := by
  cases t <;> simp [RegisterTable.formAt, RegisterTable.entries]

/-- The fetch of a table entry: the action of the entry found, or a fault (R86, R89). -/
theorem runFetched_fetchEntry {s : State} {t : RegisterTable} (ht : tableOf s.params s.seqTbl = some t) :
    runFetched (fetchEntry s) =
      match tableEntry t s.seqPc.toNat with
      | some e => .next (afterEntry (playEntry e s))
      | none => .fault .tableOverrun := by
  simp only [fetchEntry, ht, tableEntry]
  by_cases hend : atTableEnd t s.seqPc.toNat = true
  · simp only [if_pos hend, runFetched, playEntry]
  · simp only [if_neg hend]
    cases hf : t.formAt s.seqPc.toNat with
    | none => simp only [(formAt_eq_none_iff t _).mp hf, runFetched]
    | some f =>
      obtain ⟨i, e, hdecode, hentry, -, hexec⟩ := exec_formAt (p := s.params) hf
      simp only [hdecode, hentry, runFetched, hexec, resume]

theorem runFetched_fetchEntry_missing {s : State} (ht : tableOf s.params s.seqTbl = none) :
    runFetched (fetchEntry s) = .fault .tableOverrun := by
  simp only [fetchEntry, ht, runFetched]

/-! ## The sources of a step -/

theorem stuck_of_idle {s : State} (hb : s.busy = false) : stuck s = false := by simp [stuck, hb]

theorem stuck_of_never {s : State} (hb : s.busy = true) (hr : s.reply = .never) : stuck s = true := by
  simp [stuck, hb, hr]

theorem stuck_of_bus {s : State} {f : Encoded} (hbus : s.bus = some f) (hr : s.reply ≠ .never) : stuck s = false := by
  simp [stuck, hbus, hr]

theorem stuck_of_seq {s : State} (hseq : s.seqState ≠ .idle) (hr : s.reply ≠ .never) : stuck s = false := by
  simp [stuck, hseq, hr]

/-- With the sequencer idle and nothing in the transport unit, a block that is not stuck runs no command. -/
theorem idle_of_not_stuck {s : State} (h : stuck s = false) (hbus : s.bus = none) (hseq : s.seqState = .idle) :
    s.busy = false := by
  cases hb : s.busy
  · rfl
  · simp [stuck, hb, hbus, hseq] at h

section
variable {s : State} (hwf : recordWf s.params = true) (hf : s.fault = [])
include hwf hf

theorem step_stuck (hs : stuck s = true) : step s = .next s.hostTurn := by
  simp only [step, fetch, if_pos hwf, if_pos hf, if_pos hs, runFetched]

theorem step_frame (hs : stuck s = false) {f : Encoded} (hbus : s.bus = some f) :
    step s = runFetched (fetchFrame f s) := by
  simp only [step, fetch, if_pos hwf, if_pos hf, hs, Bool.false_eq_true, if_false, hbus]

theorem step_entry (hs : stuck s = false) (hbus : s.bus = none) (hseq : s.seqState = .run) :
    step s = runFetched (fetchEntry s) := by
  simp only [step, fetch, if_pos hwf, if_pos hf, hs, Bool.false_eq_true, if_false, hbus, hseq]

theorem step_settle (hs : stuck s = false) (hbus : s.bus = none) (hseq : s.seqState = .settle) :
    step s = .next (settleEnd s) := by
  simp only [step, fetch, if_pos hwf, if_pos hf, hs, Bool.false_eq_true, if_false, hbus, hseq, runFetched]

theorem step_host (hs : stuck s = false) (hbus : s.bus = none) (hseq : s.seqState = .idle) :
    step s = runFetched (fetchHost s) := by
  simp only [step, fetch, if_pos hwf, if_pos hf, hs, Bool.false_eq_true, if_false, hbus, hseq]

end

/-- Everything a step can do. -/
inductive Steps (s : State) : State → Prop
  /-- A stuck command waits; the host has its turn (R112). -/
  | waits (hs : stuck s = true) : Steps s s.hostTurn
  /-- The frame in the transport unit (R104). -/
  | frame {f : Encoded} {i : Instr} {u : State} (hs : stuck s = false) (hbus : s.bus = some f)
      (hdecode : decode s.params f = .ok i) (hexec : exec i { s with bus := none } = .next u) : Steps s (afterFrame u)
  /-- The table entry at SEQ_PC (R89). -/
  | entry {t : RegisterTable} {e : Option (CbAddr × Byte)} (hs : stuck s = false) (hbus : s.bus = none)
      (hseq : s.seqState = .run) (ht : tableOf s.params s.seqTbl = some t)
      (he : tableEntry t s.seqPc.toNat = some e) : Steps s (afterEntry (playEntry e s))
  /-- The end of a settle wait (R94). -/
  | settled (hs : stuck s = false) (hbus : s.bus = none) (hseq : s.seqState = .settle) : Steps s (settleEnd s)
  /-- An idle block (R149). -/
  | idle (hb : s.busy = false) (hbus : s.bus = none) (hseq : s.seqState = .idle) (hh : s.host = []) : Steps s s
  /-- A host command (R126). -/
  | command {bytes : List Byte} {early : Option Nat} {rest : List HostMove} {u : State} (hb : s.busy = false)
      (hbus : s.bus = none) (hseq : s.seqState = .idle) (hh : s.host = .command bytes early :: rest)
      (hexec : exec (decodeHost s.params.addrW bytes) { s with host := rest } = .next u) : Steps s u
  /-- A byte the host writes (R133). -/
  | store {b : HostBuffer} {i : Nat} {v : Byte} {rest : List HostMove} {u : State} (hb : s.busy = false)
      (hbus : s.bus = none) (hseq : s.seqState = .idle) (hh : s.host = .store b i v :: rest)
      (hstore : hostStore b i v { s with host := rest } = .next u) : Steps s u

theorem runFetched_instr {i : Instr} {src : Source} {s t : State} (h : runFetched (.instr i src s) = .next t) :
    ∃ u, exec i s = .next u ∧ t = resume src u := by
  simp only [runFetched] at h
  split at h
  · injection h with h; exact ⟨_, ‹_›, h.symm⟩
  · cases h
  · cases h

/-- The inversion of `step`. -/
theorem step_next {s t : State} (h : step s = .next t) : recordWf s.params = true ∧ s.fault = [] ∧ Steps s t := by
  have hwf : recordWf s.params = true := by
    by_contra hwf
    rw [step_illFormed (Bool.eq_false_of_not_eq_true hwf)] at h
    cases h
  have hf : s.fault = [] := by
    by_contra hf
    rw [step_faulted hwf hf] at h
    cases h
  refine ⟨hwf, hf, ?_⟩
  cases hs : stuck s with
  | true =>
    rw [step_stuck hwf hf hs] at h
    injection h with h
    exact h ▸ .waits hs
  | false =>
    cases hbus : s.bus with
    | some f =>
      rw [step_frame hwf hf hs hbus, fetchFrame] at h
      cases hdecode : decode s.params f with
      | error e => simp [hdecode, runFetched] at h
      | ok i =>
        simp only [hdecode] at h
        obtain ⟨u, hexec, rfl⟩ := runFetched_instr h
        exact .frame hs hbus hdecode hexec
    | none =>
      cases hseq : s.seqState with
      | run =>
        rw [step_entry hwf hf hs hbus hseq] at h
        cases ht : tableOf s.params s.seqTbl with
        | none => rw [runFetched_fetchEntry_missing ht] at h; cases h
        | some tbl =>
          rw [runFetched_fetchEntry ht] at h
          split at h
          · injection h with h
            exact h ▸ .entry hs hbus hseq ht ‹_›
          · cases h
      | settle =>
        rw [step_settle hwf hf hs hbus hseq] at h
        injection h with h
        exact h ▸ .settled hs hbus hseq
      | idle =>
        have hb := idle_of_not_stuck hs hbus hseq
        rw [step_host hwf hf hs hbus hseq, fetchHost] at h
        split at h
        · rename_i hh
          injection h with h
          exact h ▸ .idle hb hbus hseq hh
        · obtain ⟨u, hexec, rfl⟩ := runFetched_instr h
          exact .command hb hbus hseq ‹_› hexec
        · split at h
          · rename_i hh _ _ hstore
            injection h with h
            exact h ▸ .store hb hbus hseq hh hstore
          · cases h
          · cases h

end Sys2Proof.Machine
end

section
/-! SUPPORT. The course of a command, told once for any two predicates on states: `Mid`, which its actions keep while it
runs, and `End`, which holds where it ends, waits or goes no further. Every statement about all commands follows from it. -/

namespace Sys2Proof.Machine

/-! ## Register transactions -/

/-- What one of the four register transactions can change (R76 to R79): no buffer, and not the drain index. -/
structure Accesses (s t : State) : Prop extends Transacts s t where
  bufKept : t.buf = s.buf
  outKept : t.out = s.out
  drainKept : t.drainIdx = s.drainIdx

theorem cbWrite_accesses (a : CbAddr) (v : Byte) (s : State) : Accesses s (cbWrite a v s) :=
  have ⟨hb, ho, hd⟩ := cbWrite_buffers a v s
  ⟨cbWrite_transacts a v s, hb, ho, hd⟩

theorem cbRead_accesses (a : CbAddr) (s : State) : Accesses s (cbRead a s) :=
  have ⟨hb, ho, hd⟩ := cbRead_buffers a s
  ⟨cbRead_transacts a s, hb, ho, hd⟩

theorem dbWrite_accesses (a : DbAddr) (v : Byte) (s : State) : Accesses s (dbWrite a v s) :=
  have ⟨hb, ho, hd⟩ := dbWrite_buffers a v s
  ⟨dbWrite_transacts a v s, hb, ho, hd⟩

theorem dbRead_accesses (a : DbAddr) (s : State) : Accesses s (dbRead a s) :=
  have ⟨hb, ho, hd⟩ := dbRead_buffers a s
  ⟨dbRead_transacts a s, hb, ho, hd⟩

/-- The command has not been stopped: it may still act. A halted one has a fault (R11, R127). -/
def State.live (s : State) : Prop := s.fault = [] → s.reply ≠ .never

theorem live_of_ok {s : State} {v : Byte} (h : s.reply = .ok v) : s.live := by simp [State.live, h]

theorem live_of_err {s : State} (h : s.reply = .err) : s.live := by simp [State.live, h]

theorem live_of_none {s : State} (h : s.reply = .none) : s.live := by simp [State.live, h]

/-- An action's turn leaves a live command live, if the action does. -/
theorem inTurn_live {action : State → State} {s : State}
    (h : ∀ b : State, (action b).reply = b.reply) (hs : s.live) : (inTurn action s).live := by
  rcases inTurn_cases action s with ⟨host, -, hf, e⟩ | ⟨fault, host, -, hfault, -, e⟩
  · intro _
    rw [e, h]
    exact hs hf
  · intro hnil
    rw [e] at hnil
    exact absurd hnil hfault

/-! ## What a command's course keeps -/

/-- The steps that the courses of all commands share: `Mid` is kept by a register transaction, and leads to `End` by a
response and where the command goes no further. -/
structure Kept (Mid End : State → Prop) : Prop where
  access : ∀ {s t}, Mid s → s.live → Accesses s t → Mid t
  respond : ∀ {s code len data}, Mid s → s.live → code.toNat ≤ 9 → (code ≠ okCode → len = 0) →
    End (s.respond code len data)
  halt : ∀ {s}, Mid s → End s

/-- What follows a transaction: one of the two branches, or nothing (R11). -/
theorem onReply_kept {Mid End : State → Prop} {s : State} {err : State → State} {ok : Byte → State → State}
    (halt : ∀ {s}, Mid s → End s) (hs : Mid s) (herr : s.reply = .err → End (err s))
    (hok : ∀ v, s.reply = .ok v → End (ok v s)) : End (onReply s err ok) := by
  unfold onReply
  split
  · exact hok _ ‹_›
  · exact herr ‹_›
  · exact halt hs
  · exact halt hs

section
variable {Mid End : State → Prop} (K : Kept Mid End)
include K

/-- A status is taken (R136). -/
theorem Kept.raise {s : State} {code : Byte} {data : BitVec 32} (hs : Mid s) (hl : s.live) (hcode : code.toNat ≤ 9) :
    End (raise code data s) := K.respond hs hl hcode fun _ => rfl

/-- The normal end (R130). -/
theorem Kept.finish {s : State} {len : Count} {data : BitVec 32} (hs : Mid s) (hl : s.live) : End (finish len data s) :=
  K.respond hs hl (by decide) fun h => absurd rfl h

/-- A raw command's course from its transaction on: the response, or BUS_ERROR (R81 to R85). -/
theorem Kept.rawCourse {s : State} (hs : Mid s) (len : Count) (data : Byte → BitVec 32) :
    End (onReply s (Machine.raise busError 0) fun v => Machine.finish len (data v)) :=
  onReply_kept K.halt hs (fun h => K.raise hs (live_of_err h) (by decide)) fun _ h => K.finish hs (live_of_ok h)

/-- SELFTEST (R114). -/
theorem Kept.selftest (flag : ∀ {s} (b : Bool), Mid s → Mid { s with selftestOk := b }) {s : State} (hs : Mid s)
    (hlive : s.live) : End (selftest s) := by
  have hfail : ∀ {u : State}, Mid u → u.reply = .err → End (selftestBusError u) := fun hu h =>
    K.raise (flag false hu) (live_of_err h) (by decide)
  have hw := K.access hs hlive (dbWrite_accesses (dbAddr s.params.regScratch) s.params.scratchVal s)
  refine onReply_kept K.halt hw (hfail hw) fun _ hok => ?_
  have hr := fun a => K.access hw (live_of_ok hok) (dbRead_accesses a _)
  refine onReply_kept K.halt (hr _) (hfail (hr _)) fun v h => ?_
  unfold selftestCompare
  split
  · exact K.finish (flag true (hr _)) (live_of_ok h)
  · exact K.raise (flag false (hr _)) (live_of_ok h) (by decide)

/-- PROBE after its prelude (R116). -/
theorem Kept.probeIdentity (flag : ∀ {s} (b : Bool), Mid s → Mid { s with probeOk := b }) {s : State} (hs : Mid s) :
    End (probeIdentity s) := by
  have hfail : ∀ {u : State}, Mid u → u.reply = .err → End (probeBusError u) := fun hu h =>
    K.raise (flag false hu) (live_of_err h) (by decide)
  refine onReply_kept K.halt hs (hfail hs) fun _ hok => ?_
  have hh := K.access hs (live_of_ok hok) (cbRead_accesses s.params.idHAddr s)
  refine onReply_kept K.halt hh (hfail hh) fun h hok => ?_
  have hl := fun a => K.access hh (live_of_ok hok) (cbRead_accesses a _)
  refine onReply_kept K.halt (hl _) (hfail (hl _)) fun l hr => ?_
  unfold probeCompare
  split
  · exact K.finish (flag true (hl _)) (live_of_ok hr)
  · exact K.raise (flag false (hl _)) (live_of_ok hr) (by decide)

/-- CONFIGURE after its playback (R96). -/
theorem Kept.configureEnd {m : Byte} {s : State} (failed : Mid s → Mid { s with cfgValid := false, mode := 0xFF })
    (configured : Mid s → Mid { s with cfgValid := true, mode := m }) (hs : Mid s) : End (configureEnd m s) :=
  onReply_kept K.halt hs (fun h => K.raise (failed hs) (live_of_err h) (by decide)) fun _ h =>
    K.finish (configured hs) (live_of_ok h)

end

/-! ## Host commands -/

/-- What the course of one command asks for besides. -/
structure CommandKept (i : Instr) (Mid End : State → Prop) : Prop extends Kept Mid End where
  burst : ∀ {s n}, i = .dburst n → badBurst s.params n = false → s.live → Mid s → Mid (dbBurst (n.setWidth 23) .buf s)
  flag : i = .selftest → ∀ {s} b, Mid s → Mid { s with selftestOk := b }
  recon : i = .reconstruct → ∀ {s}, Mid s → Mid (reconstruct s)
  play : ∀ {s r}, (i = .probe ∧ r = .prelude ∨ ∃ m, i = .configure m ∧ r = .mode (resolve s.params m)) → Mid s →
    End (startPlay r s)
  capture : i = .capture → ∀ {s}, s.reply = .none → Mid s → End (capture s)

/-- Everything an accepted host command can do: BUSY_VIOLATION in a block that is busy or whose host breaks in (R127), or
its course from a state in which only the host's moves have counted down. -/
theorem accept_cases {c : State → Host.Outcome State Fault Refusal} {s t : State} (h : accept c s = .next t) :
    s.fault = [] ∧
      ((s.busy = true ∧ t = { s with fault := [.busyViolation], reply := .never }) ∨
       (s.busy = false ∧ ∃ host, (s.host.all (moveInRange s.params) = true → host.all (moveInRange s.params) = true) ∧
         (t = { s with busy := true, host := host, fault := [.busyViolation], reply := .never } ∨
          c { s.begin with host := host } = .next t))) := by
  obtain ⟨hf, ⟨hb, rfl⟩ | ⟨hb, hne, rfl⟩ | ⟨hb, hnil, hc⟩⟩ := accept_next h
  · exact ⟨hf, .inl ⟨hb, busyViolation_unfaulted hf⟩⟩
  all_goals
    refine ⟨hf, .inr ⟨hb, s.begin.hostTurn.host, (hostTurn_frame s.begin).2.2, ?_⟩⟩
    rcases hostTurn_cases s.begin with e | ⟨bytes, rest, -, -, e⟩ | ⟨bytes, k, rest, -, -, e⟩
  · rw [e] at hne; exact absurd hf hne
  · refine .inl ?_
    rw [e, busyViolation_unfaulted (s := { s.begin with host := rest }) hf]
    rfl
  · rw [e] at hne; exact absurd hf hne
  · refine .inr ?_
    rw [e] at hc ⊢
    exact hc
  · rw [e] at hnil; exact absurd hnil (busyViolation_fault_ne _)
  · refine .inr ?_
    rw [e] at hc ⊢
    exact hc

/-- Every host command, whatever the block and the host do: `End` holds where it does of the two violations, and `Mid` of
the state in which its course starts. -/
theorem CommandKept.exec {i : Instr} {Mid End : State → Prop} (K : CommandKept i Mid End) (hi : isHostCommand i = true)
    {s t : State} (h : exec i s = .next t)
    (busy : s.fault = [] → s.busy = true → End { s with fault := [.busyViolation], reply := .never })
    (early : ∀ host, s.fault = [] → s.busy = false →
      (s.host.all (moveInRange s.params) = true → host.all (moveInRange s.params) = true) →
      End { s with busy := true, host := host, fault := [.busyViolation], reply := .never })
    (start : ∀ host, s.fault = [] → s.busy = false →
      (s.host.all (moveInRange s.params) = true → host.all (moveInRange s.params) = true) →
      Mid { s.begin with host := host }) : End t := by
  obtain ⟨c, hc, hcourse⟩ : ∃ c, Machine.exec i = accept c ∧
      ∀ {b u : State}, b.reply = .none → Mid b → c b = .next u → End u := by
    have hK := K.toKept
    cases i with
    | selftest =>
      refine ⟨_, funext fun s => by rw [Machine.exec, execSelftest], fun {b u} hr hb e => ?_⟩
      injection e with e
      exact e ▸ hK.selftest (K.flag rfl) hb (live_of_none hr)
    | probe =>
      refine ⟨_, funext fun s => by rw [Machine.exec, execProbe], fun {b u} _ hb e => ?_⟩
      injection e with e
      exact e ▸ K.play (.inl ⟨rfl, rfl⟩) hb
    | configure m =>
      refine ⟨_, funext fun s => by rw [Machine.exec, execConfigure], fun {b u} _ hb e => ?_⟩
      injection e with e
      exact e ▸ K.play (.inr ⟨m, rfl, rfl⟩) hb
    | capture =>
      refine ⟨_, funext fun s => by rw [Machine.exec, execCapture], fun {b u} hr hb e => ?_⟩
      split at e
      · cases e
      · injection e with e
        exact e ▸ K.capture rfl hr hb
    | reconstruct =>
      refine ⟨_, funext fun s => by rw [Machine.exec, execReconstruct], fun {b u} hr hb e => ?_⟩
      split at e
      · injection e with e
        exact e ▸ hK.raise hb (live_of_none hr) (by decide)
      · split at e
        · injection e with e
          exact e ▸ hK.finish (K.recon rfl hb) (inTurn_live (fun _ => rfl) (live_of_none hr))
        · cases e
    | state =>
      refine ⟨_, funext fun s => by rw [Machine.exec, execState], fun {b u} hr hb e => ?_⟩
      injection e with e
      exact e ▸ hK.finish hb (live_of_none hr)
    | hostIllegal bytes =>
      refine ⟨_, funext fun s => by rw [Machine.exec, execHostIllegal], fun {b u} hr hb e => ?_⟩
      injection e with e
      exact e ▸ hK.raise hb (live_of_none hr) (by decide)
    | cread a =>
      refine ⟨_, funext fun s => by rw [Machine.exec, execCread], fun {b u} hr hb e => ?_⟩
      injection e with e
      exact e ▸ hK.rawCourse (hK.access hb (live_of_none hr) (cbRead_accesses a b)) 1 byteData
    | cwrite a v =>
      refine ⟨_, funext fun s => by rw [Machine.exec, execCwrite], fun {b u} hr hb e => ?_⟩
      injection e with e
      exact e ▸ hK.rawCourse (hK.access hb (live_of_none hr) (cbWrite_accesses a v b)) 0 fun _ => 0
    | dread a =>
      refine ⟨_, funext fun s => by rw [Machine.exec, execDread], fun {b u} hr hb e => ?_⟩
      injection e with e
      rw [← e]
      split
      · exact hK.raise hb (live_of_none hr) (by decide)
      · exact hK.rawCourse (hK.access hb (live_of_none hr) (dbRead_accesses (dbAddr a) b)) 1 byteData
    | dwrite a v =>
      refine ⟨_, funext fun s => by rw [Machine.exec, execDwrite], fun {b u} hr hb e => ?_⟩
      injection e with e
      rw [← e]
      split
      · exact hK.raise hb (live_of_none hr) (by decide)
      · exact hK.rawCourse (hK.access hb (live_of_none hr) (dbWrite_accesses (dbAddr a) v b)) 0 fun _ => 0
    | dburst n =>
      refine ⟨_, funext fun s => by rw [Machine.exec, execDburst], fun {b u} hr hb e => ?_⟩
      injection e with e
      rw [← e]
      split
      · exact hK.raise hb (live_of_none hr) (by decide)
      · exact hK.rawCourse (K.burst rfl (Bool.eq_false_of_not_eq_true ‹_›) (live_of_none hr) hb) (n.setWidth 23) fun _ => 0
    | wr8 | end8 | wr16 | dbRead | dbWrite | dbBurst | cbWrite | cbRead => simp [isHostCommand] at hi
  rw [hc] at h
  obtain ⟨hf, ⟨hb, rfl⟩ | ⟨hb, host, hrange, rfl | hstart⟩⟩ := accept_cases h
  · exact busy hf hb
  · exact early host hf hb hrange
  · exact hcourse rfl (start host hf hb hrange) hstart

/-! ## The capture state machine (R100 to R113) -/

/-- The statuses of a capture that fails past its gate (R111). -/
def captureFailure (code : Byte) : Prop :=
  code = busError ∨ code = captureStall ∨ code = capacityError ∨ code = frameSizeError

/-- What the course of CAPTURE asks for. -/
structure CaptureKept (Mid End : State → Prop) : Prop where
  access : ∀ {s t}, Mid s → s.live → Accesses s t → Mid t
  /-- T5's header and burst, of a length that fits (R108, R110). -/
  header : ∀ {s}, s.params.push = true → Mid s → Mid (inTurn (fun h => h.outWrite [h.params.hdr0, h.params.hdr1]) s)
  burst : ∀ {s}, (s.params.push = false → s.len.toNat ≤ s.params.cap) → s.live → Mid s →
    Mid (dbBurst s.len (drainDst s.params) s)
  recon : ∀ {s}, s.params.raw = true → Mid s → Mid (reconstruct s)
  /-- CFSM moves; POLL_CNT is kept or cleared. -/
  move : ∀ {s} c n, (n = s.pollCnt ∨ n = 0) → Mid s → Mid { s with cfsm := c, pollCnt := n }
  length : ∀ {s} l, Mid s → Mid { s with len := l, lenValid := true }
  /-- T3a: the next poll waits, counted under a limit (R104, R105). -/
  await : ∀ {s} n, s.cfsm = .capturing → s.reply ≠ .never → (s.params.pollLimit = none → n = s.pollCnt) →
    (∀ k, s.params.pollLimit = some k → n < k) → Mid s → End (awaitPoll { s with pollCnt := n })
  fails : ∀ {s code}, captureFailure code → s.live → Mid s → End (abort code s)
  ends : ∀ {s} len data, (s.cfsm = .idle ∨ s.cfsm = .cleared) → s.live → Mid s → End (finish len data s)
  halt : ∀ {s}, Mid s → End s

theorem reconstruct_cfsm (s : State) : (reconstruct s).cfsm = s.cfsm := by
  rcases inTurn_cases emitPixels s with ⟨host, -, -, e⟩ | ⟨fault, host, -, -, -, e⟩
  all_goals exact (congrArg State.cfsm e).trans rfl

/-- The push header changes neither the record nor LEN. -/
theorem pushHeader_frame (s : State) : (pushHeader s).params = s.params ∧ (pushHeader s).len = s.len := by
  unfold pushHeader
  split
  · rcases inTurn_cases (fun h => h.outWrite [h.params.hdr0, h.params.hdr1]) s with
      ⟨host, -, -, e⟩ | ⟨fault, host, -, -, -, e⟩
    all_goals rw [e]; exact ⟨rfl, rfl⟩
  · exact ⟨rfl, rfl⟩

section
variable {Mid End : State → Prop} (K : CaptureKept Mid End)
include K

theorem CaptureKept.cfsm {s : State} (c : Cfsm) (hs : Mid s) : Mid { s with cfsm := c } := K.move c s.pollCnt (.inl rfl) hs

theorem CaptureKept.fifoControl {s : State} (v : Byte) (hl : s.live) (hs : Mid s) : Mid (fifoControl v s) :=
  K.access hs hl (dbWrite_accesses _ v s)

theorem CaptureKept.dbRead {s : State} (hl : s.live) (hs : Mid s) (a : DbAddr) : Mid (dbRead a s) :=
  K.access hs hl (dbRead_accesses a s)

/-- A transaction of a capture: on to the next stage, or BUS_ERROR, or nothing (R11, R111). -/
theorem CaptureKept.stage {s : State} {ok : Byte → State → State} (hs : Mid s)
    (hok : ∀ v, s.reply = .ok v → End (ok v s)) : End (onReply s (abort busError) ok) :=
  onReply_kept K.halt hs (fun h => K.fails (.inl rfl) (live_of_err h) hs) hok

theorem CaptureKept.captureEnd {s : State} (hrest : s.cfsm = .idle ∨ s.cfsm = .cleared) (hl : s.live) (hs : Mid s) :
    End (captureEnd s) := by
  unfold Machine.captureEnd
  split
  · refine K.ends _ _ ?_ (inTurn_live (fun _ => rfl) hl) (K.recon ‹_› hs)
    rwa [reconstruct_cfsm]
  · exact K.ends _ _ hrest hl hs

theorem CaptureKept.afterDrain {s : State} (hl : s.live) (hs : Mid s) : End (afterDrain s) := by
  unfold Machine.afterDrain
  split
  · have hf := K.fifoControl s.params.fifoClear hl hs
    exact K.stage hf fun v hr => K.captureEnd (.inr rfl) (live_of_ok hr) (K.cfsm .cleared hf)
  · exact K.captureEnd (.inl rfl) hl (K.cfsm .idle hs)

theorem CaptureKept.drain {s : State} (hfit : s.params.push = false → s.len.toNat ≤ s.params.cap) (hl : s.live)
    (hs : Mid s) : End (drain s) := by
  obtain ⟨hp, hlen⟩ := pushHeader_frame s
  have hh : Mid (pushHeader s) ∧ (pushHeader s).live := by
    unfold pushHeader
    split
    · exact ⟨K.header ‹_› hs, inTurn_live (fun _ => rfl) hl⟩
    · exact ⟨hs, hl⟩
  have hb := K.burst (s := pushHeader s) (by rwa [hp, hlen]) hh.2 hh.1
  exact K.stage hb fun v hr => K.afterDrain (live_of_ok hr) hb

theorem CaptureKept.lengthChecks {s : State} (hl : s.live) (hs : Mid s) : End (lengthChecks s) := by
  unfold Machine.lengthChecks
  split
  · exact K.fails (.inr (.inr (.inl rfl))) hl hs
  · split
    · exact K.fails (.inr (.inr (.inr rfl))) hl hs
    · rename_i hcap _
      refine K.drain (fun hpush => ?_) hl (K.cfsm .draining hs)
      simpa [show s.params.push = false from hpush] using hcap

theorem CaptureKept.readLength {s : State} (hl : s.live) (hs : Mid s) : End (readLength s) := by
  have h1 := K.dbRead hl hs
  refine K.stage (h1 _) fun l1 hr => ?_
  have h2 := K.dbRead (live_of_ok hr) (h1 _)
  refine K.stage (h2 _) fun l2 hr => ?_
  have h3 := K.dbRead (live_of_ok hr) (h2 _)
  exact K.stage (h3 _) fun l3 hr => K.lengthChecks (live_of_ok hr) (K.length _ (h3 _))

theorem CaptureKept.pollLimitStep {s : State} (hc : s.cfsm = .capturing) {v : Byte} (hr : s.reply = .ok v) (hs : Mid s) :
    End (pollLimitStep s) := by
  have hnever : s.reply ≠ .never := by simp [hr]
  unfold Machine.pollLimitStep
  split
  · rename_i hlimit
    exact K.await s.pollCnt hc hnever (fun _ => rfl) (fun k hk => by rw [hlimit] at hk; cases hk) hs
  · rename_i k hlimit
    split
    · exact K.fails (s := s) (.inr (.inl rfl)) (live_of_ok hr) hs
    · refine K.await (s.pollCnt + 1) hc hnever (fun h => by rw [hlimit] at h; cases h) (fun k' hk' => ?_) hs
      rw [hlimit] at hk'
      injection hk' with hk'
      omega

/-- A poll has returned (R104). -/
theorem CaptureKept.pollReturned {s : State} (hc : s.cfsm = .capturing) (hs : Mid s) : End (pollReturned s) := by
  refine K.stage hs fun v hr => ?_
  unfold pollRead
  split
  · exact K.readLength (live_of_ok hr) (K.cfsm .done hs)
  · exact K.pollLimitStep hc hr hs

/-- T3, one poll (R104). -/
theorem CaptureKept.poll {s : State} (hc : s.cfsm = .capturing) (hl : s.live) (hs : Mid s) : End (poll s) :=
  have hr := dbRead_accesses (dbAddr s.params.regTrig) s
  K.pollReturned (hr.cfsm.trans hc) (K.access hs hl hr)

theorem CaptureKept.startCapture {s : State} (hl : s.live) (hs : Mid s) : End (startCapture s) := by
  have hf := K.fifoControl s.params.fifoStart hl hs
  exact K.stage hf fun v hr => K.poll rfl (live_of_ok hr) (K.move .capturing 0 (.inr rfl) hf)

theorem CaptureKept.clearFifo {s : State} (hl : s.live) (hs : Mid s) : End (clearFifo s) := by
  unfold Machine.clearFifo
  split
  · have hf := K.fifoControl s.params.fifoClear hl hs
    exact K.stage hf fun v hr => K.startCapture (live_of_ok hr) (K.cfsm .cleared hf)
  · exact K.startCapture hl hs

end

end Sys2Proof.Machine
end

section
/-! SUPPORT. The statements about what no step undoes, what only its own command writes, and what a command reports: each
command's course, by way of `CommandKept` and `CaptureKept`, and then every source of a step. -/

namespace Sys2Proof.Machine

/-! ## History (R6, R15, R43, R44) -/

/-- The record is constant, and OUT, LOG and FAULT only grow; the host's coming stores stay in its buffers. -/
structure Grows (s t : State) : Prop where
  params : t.params = s.params
  log : s.log <+: t.log
  out : s.out <+: t.out
  fault : ∀ r ∈ s.fault, r ∈ t.fault
  host : s.host.all (moveInRange s.params) = true → t.host.all (moveInRange s.params) = true

theorem Grows.refl (s : State) : Grows s s := ⟨rfl, List.prefix_rfl, List.prefix_rfl, fun _ h => h, fun h => h⟩

/-- A change that LOG and OUT do not see. -/
theorem Grows.of_frame {s t : State} (hp : t.params = s.params := by rfl) (hl : t.log = s.log := by rfl)
    (ho : t.out = s.out := by rfl) (hfault : ∀ r ∈ s.fault, r ∈ t.fault := by exact fun _ h => h)
    (hhost : s.host.all (moveInRange s.params) = true → t.host.all (moveInRange s.params) = true := by exact fun h => h) :
    Grows s t :=
  ⟨hp, hl ▸ List.prefix_rfl, ho ▸ List.prefix_rfl, hfault, hhost⟩

theorem Grows.trans {s t u : State} (h : Grows s t) (h' : Grows t u) : Grows s u where
  params := h'.params.trans h.params
  log := h.log.trans h'.log
  out := h.out.trans h'.out
  fault r hr := h'.fault r (h.fault r hr)
  host hs := by
    have := h'.host
    rw [h.params] at this
    exact this (h.host hs)

theorem Transacts.grows {s t : State} (h : Transacts s t) : Grows s t := ⟨h.params, h.log, h.out, h.fault, h.host⟩

theorem inTurn_grows {action : State → State} (s : State) (h : ∀ b : State, Grows b (action b)) :
    Grows s (inTurn action s) := by
  rcases inTurn_cases action s with ⟨host, hrange, -, e⟩ | ⟨fault, host, hrange, -, hfault, e⟩ <;> rw [e]
  · exact Grows.trans (t := { s with host := host }) (.of_frame (hhost := hrange)) (h _)
  · exact .of_frame (hfault := hfault) (hhost := hrange)

theorem hostTurn_grows (s : State) : Grows s s.hostTurn := by
  obtain ⟨hframe, hfault, hrange⟩ := hostTurn_frame s
  rw [hframe] at hfault hrange ⊢
  exact .of_frame (hfault := hfault) (hhost := hrange)

/-! ## The response (R130, R136) -/

/-- The command runs, and has written no result register. -/
structure Unanswered (s t : State) : Prop where
  busy : t.busy = true
  status : t.status = s.status
  resultLen : t.resultLen = s.resultLen
  resultData : t.resultData = s.resultData

theorem Unanswered.refl {s : State} (hb : s.busy = true) : Unanswered s s := ⟨hb, rfl, rfl, rfl⟩

theorem Unanswered.trans {s t u : State} (h : Unanswered s t) (h' : Unanswered t u) : Unanswered s u :=
  ⟨h'.busy, h'.status.trans h.status, h'.resultLen.trans h.resultLen, h'.resultData.trans h.resultData⟩

theorem Unanswered.transacts {s t u : State} (h : Unanswered s t) (ht : Transacts t u) : Unanswered s u :=
  ⟨ht.busy.trans h.busy, ht.status.trans h.status, ht.resultLen.trans h.resultLen, ht.resultData.trans h.resultData⟩

theorem Unanswered.inTurn {s t : State} {action : State → State} (h : Unanswered s t)
    (hact : ∀ b : State, Unanswered s b → Unanswered s (action b)) : Unanswered s (inTurn action t) := by
  rcases inTurn_cases action t with ⟨host, -, -, e⟩ | ⟨fault, host, -, -, -, e⟩ <;> rw [e]
  · exact hact _ ⟨h.busy, h.status, h.resultLen, h.resultData⟩
  · exact ⟨h.busy, h.status, h.resultLen, h.resultData⟩

/-- The command has ended with one status, and with length 0 unless the code is OK. -/
structure Answered (t : State) : Prop where
  idle : t.busy = false
  status : t.status.toNat ≤ 9
  resultLen : t.status ≠ okCode → t.resultLen = 0

/-- A response is given, or the host breaks in and the command is stopped (R127, R130). -/
theorem respond_cases (s : State) (code : Byte) (len : Count) (data : BitVec 32) :
    (∃ host, (s.host.all (moveInRange s.params) = true → host.all (moveInRange s.params) = true) ∧ s.fault = [] ∧
      s.respond code len data =
        { s with host := host, status := code, resultLen := len, resultData := data, busy := false }) ∨
    ∃ fault host, (s.host.all (moveInRange s.params) = true → host.all (moveInRange s.params) = true) ∧ fault ≠ [] ∧
      (∀ r ∈ s.fault, r ∈ fault) ∧
      s.respond code len data = { s with fault := fault, host := host, reply := .never } :=
  inTurn_cases (fun h => h.setResponse code len data) s

/-- A response of a command that has given none is one of the table's, or none is given. -/
theorem Unanswered.respond {s t : State} (h : Unanswered s t) {code : Byte} {len : Count} {data : BitVec 32}
    (hcode : code.toNat ≤ 9) (hlen : code ≠ okCode → len = 0) :
    Unanswered s (t.respond code len data) ∨ Answered (t.respond code len data) := by
  rcases respond_cases t code len data with ⟨host, -, -, e⟩ | ⟨fault, host, -, -, -, e⟩ <;> rw [e]
  · exact .inr ⟨rfl, hcode, hlen⟩
  · exact .inl ⟨h.busy, h.status, h.resultLen, h.resultData⟩

/-! ## CAPTURE (R100, R110, R111, R113) -/

/-- What CAPTURE never changes. -/
structure CaptureKeeps (s t : State) : Prop extends Grows s t where
  selftestOk : t.selftestOk = s.selftestOk
  probeOk : t.probeOk = s.probeOk
  cfgValid : t.cfgValid = s.cfgValid
  mode : t.mode = s.mode
  seqState : t.seqState = s.seqState
  seqPc : t.seqPc = s.seqPc
  seqTbl : t.seqTbl = s.seqTbl
  obufKept : s.params.raw = false → t.obuf = s.obuf
  bufKept : s.params.push = true → t.buf = s.buf
  outKept : s.params.push = false → t.out = s.out

theorem CaptureKeeps.refl (s : State) : CaptureKeeps s s :=
  ⟨Grows.refl s, rfl, rfl, rfl, rfl, rfl, rfl, rfl, fun _ => rfl, fun _ => rfl, fun _ => rfl⟩

theorem CaptureKeeps.trans {s t u : State} (h : CaptureKeeps s t) (h' : CaptureKeeps t u) : CaptureKeeps s u where
  toGrows := h.toGrows.trans h'.toGrows
  selftestOk := h'.selftestOk.trans h.selftestOk
  probeOk := h'.probeOk.trans h.probeOk
  cfgValid := h'.cfgValid.trans h.cfgValid
  mode := h'.mode.trans h.mode
  seqState := h'.seqState.trans h.seqState
  seqPc := h'.seqPc.trans h.seqPc
  seqTbl := h'.seqTbl.trans h.seqTbl
  obufKept hr := (h'.obufKept (by rwa [h.params])).trans (h.obufKept hr)
  bufKept hp := (h'.bufKept (by rwa [h.params])).trans (h.bufKept hp)
  outKept hp := (h'.outKept (by rwa [h.params])).trans (h.outKept hp)

/-- A transaction of CAPTURE, which writes BUF or OUT only as the push option allows. -/
theorem Transacts.captureKeeps {s t : State} (h : Transacts s t) (hbuf : s.params.push = true → t.buf = s.buf)
    (hout : s.params.push = false → t.out = s.out) : CaptureKeeps s t :=
  ⟨h.grows, h.selftestOk, h.probeOk, h.cfgValid, h.mode, h.seqState, h.seqPc, h.seqTbl, fun _ => h.obuf, hbuf, hout⟩

theorem dbBurst_captureKeeps (n : Count) (s : State) : CaptureKeeps s (dbBurst n (drainDst s.params) s) := by
  obtain ⟨hout, hbuf⟩ := dbBurst_buffers n (drainDst s.params) s
  refine (dbBurst_transacts n _ s).captureKeeps (fun hp => hout ?_) fun hp => (hbuf ?_).1 <;> simp [drainDst, hp]

/-- What CAPTURE writes in its own registers, and what the host's turn does. -/
theorem CaptureKeeps.of_frame {s t : State}
    (h : t = { s with busy := t.busy, fault := t.fault, cfsm := t.cfsm, len := t.len, lenValid := t.lenValid,
                      pollCnt := t.pollCnt, status := t.status, resultLen := t.resultLen, resultData := t.resultData,
                      host := t.host, reply := t.reply, bus := t.bus })
    (hfault : ∀ r ∈ s.fault, r ∈ t.fault := by exact fun _ h => h)
    (hhost : s.host.all (moveInRange s.params) = true → t.host.all (moveInRange s.params) = true := by exact fun h => h) :
    CaptureKeeps s t := by
  have hsame : ∀ {α : Type} (g : State → α), g t = g _ := fun g => congrArg g h
  exact ⟨⟨hsame State.params, by rw [h], by rw [h], hfault, hhost⟩, hsame State.selftestOk, hsame State.probeOk,
    hsame State.cfgValid, hsame State.mode, hsame State.seqState, hsame State.seqPc, hsame State.seqTbl,
    fun _ => hsame State.obuf, fun _ => hsame State.buf, fun _ => hsame State.out⟩

/-- An action's turn in CAPTURE. -/
theorem inTurn_captureKeeps {action : State → State} {s : State}
    (h : ∀ host, CaptureKeeps { s with host := host } (action { s with host := host })) :
    CaptureKeeps s (inTurn action s) := by
  rcases inTurn_cases action s with ⟨host, hrange, -, e⟩ | ⟨fault, host, hrange, -, hfault, e⟩ <;> rw [e]
  · exact CaptureKeeps.trans (t := { s with host := host }) (.of_frame rfl (hhost := hrange)) (h host)
  · exact .of_frame rfl hfault hrange

theorem respond_captureKeeps (s : State) (code : Byte) (len : Count) (data : BitVec 32) :
    CaptureKeeps s (s.respond code len data) :=
  inTurn_captureKeeps fun _ => .of_frame rfl

/-- The response of a CAPTURE past its gate: OK, or one of four failures, from CFSM IDLE (R111). -/
structure CaptureAnswered (t : State) : Prop where
  idle : t.busy = false
  status : t.status = okCode ∨
    captureFailure t.status ∧ t.cfsm = .idle ∧ t.pollCnt = 0 ∧ t.resultLen = 0 ∧ t.resultData = 0

theorem captureFailure_le {code : Byte} (h : captureFailure code) : code.toNat ≤ 9 := by
  rcases h with rfl | rfl | rfl | rfl <;> decide

theorem CaptureAnswered.answered {t : State} (h : CaptureAnswered t) : Answered t where
  idle := h.idle
  status := by
    rcases h.status with hok | ⟨hfail, -⟩
    · rw [hok]; decide
    · exact captureFailure_le hfail
  resultLen hne := by
    rcases h.status with hok | ⟨-, -, -, hlen, -⟩
    · exact absurd hok hne
    · exact hlen

/-- A CAPTURE under way from `s`, and one that has ended, waits or is stuck. -/
def CaptureRuns (s t : State) : Prop := CaptureKeeps s t ∧ Unanswered s t

def CaptureStops (s t : State) : Prop := CaptureKeeps s t ∧ (Unanswered s t ∨ CaptureAnswered t)

/-- CAPTURE's own registers are written while it runs. -/
theorem CaptureRuns.write {s₀ s t : State} (h : CaptureRuns s₀ s) (hk : CaptureKeeps s t) (hu : Unanswered s t) :
    CaptureRuns s₀ t :=
  ⟨h.1.trans hk, h.2.trans hu⟩

theorem captureRuns_kept (s₀ : State) : CaptureKept (CaptureRuns s₀) (CaptureStops s₀) where
  access h _ ha := ⟨h.1.trans (ha.captureKeeps (fun _ => ha.bufKept) fun _ => ha.outKept), h.2.transacts ha.toTransacts⟩
  header {s} hp h := by
    refine ⟨h.1.trans (inTurn_captureKeeps fun host => ?_), h.2.inTurn fun b hb => ⟨hb.1, hb.2, hb.3, hb.4⟩⟩
    exact ⟨⟨rfl, List.prefix_append .., List.prefix_append .., fun _ h => h, fun h => h⟩, rfl, rfl, rfl, rfl, rfl, rfl, rfl,
      fun _ => rfl, fun _ => rfl, fun hn => by rw [show s.params.push = false from hn] at hp; cases hp⟩
  burst {s} _ _ h := ⟨h.1.trans (dbBurst_captureKeeps s.len s), h.2.transacts (dbBurst_transacts _ _ s)⟩
  recon {s} hr h := by
    refine ⟨h.1.trans (inTurn_captureKeeps fun host => ?_), h.2.inTurn fun b hb => ⟨hb.1, hb.2, hb.3, hb.4⟩⟩
    exact ⟨⟨rfl, List.prefix_rfl, List.prefix_rfl, fun _ h => h, fun h => h⟩, rfl, rfl, rfl, rfl, rfl, rfl, rfl,
      fun hn => by (rw [show s.params.raw = false from hn] at hr; cases hr), fun _ => rfl, fun _ => rfl⟩
  move c n _ h := h.write (.of_frame rfl) ⟨h.2.busy, rfl, rfl, rfl⟩
  length l h := h.write (.of_frame rfl) ⟨h.2.busy, rfl, rfl, rfl⟩
  await {s} n _ _ _ _ h :=
    have hr := h.write (t := awaitPoll { s with pollCnt := n }) (.of_frame rfl) ⟨h.2.busy, rfl, rfl, rfl⟩
    ⟨hr.1, .inl hr.2⟩
  fails {s code} hcode _ h := by
    have hr := h.write (t := { s with cfsm := .idle, pollCnt := 0 }) (.of_frame rfl)
      ⟨h.2.busy, rfl, rfl, rfl⟩
    refine ⟨hr.1.trans (respond_captureKeeps _ code 0 0), ?_⟩
    rcases respond_cases { s with cfsm := .idle, pollCnt := 0 } code 0 0 with ⟨host, -, -, e⟩ | ⟨fault, host, -, -, -, e⟩ <;>
      rw [abort, raise, e]
    · exact .inr ⟨rfl, .inr ⟨hcode, rfl, rfl, rfl, rfl⟩⟩
    · exact .inl ⟨hr.2.busy, hr.2.status, hr.2.resultLen, hr.2.resultData⟩
  ends {s} len data _ _ h := by
    refine ⟨h.1.trans (respond_captureKeeps s okCode len data), ?_⟩
    rcases respond_cases s okCode len data with ⟨host, -, -, e⟩ | ⟨fault, host, -, -, -, e⟩ <;> rw [finish, e]
    · exact .inr ⟨rfl, .inl rfl⟩
    · exact .inl ⟨h.2.busy, h.2.status, h.2.resultLen, h.2.resultData⟩
  halt h := ⟨h.1, .inl h.2⟩

/-- CAPTURE past its gate, from its start or from a later poll. -/
theorem clearFifo_stops {s : State} (hb : s.busy = true) (hr : s.reply = .none) : CaptureStops s (clearFifo s) :=
  (captureRuns_kept s).clearFifo (live_of_none hr) ⟨.refl s, .refl hb⟩

theorem pollReturned_stops {s : State} (hb : s.busy = true) (hc : s.cfsm = .capturing) : CaptureStops s (pollReturned s) :=
  (captureRuns_kept s).pollReturned hc ⟨.refl s, .refl hb⟩

/-- CAPTURE with its gate (R101). -/
theorem capture_keeps {s : State} (hb : s.busy = true) (hr : s.reply = .none) :
    CaptureKeeps s (capture s) ∧ (Unanswered s (capture s) ∨ Answered (capture s)) := by
  unfold capture
  split
  · obtain ⟨hk, hr⟩ := clearFifo_stops hb hr
    exact ⟨hk, hr.imp id CaptureAnswered.answered⟩
  · exact ⟨respond_captureKeeps .., (Unanswered.refl hb).respond (by decide) fun _ => rfl⟩

/-! ## The other host commands (R99, R137) -/

/-- What the instruction `i` leaves unchanged in the registers that have a command of their own (R24, R99). -/
structure Keeps (i : Instr) (s t : State) : Prop extends Grows s t where
  capture : i ≠ .capture → t.cfsm = s.cfsm ∧ t.pollCnt = s.pollCnt ∧ t.len = s.len ∧ t.lenValid = s.lenValid
  selftest : i ≠ .selftest → t.selftestOk = s.selftestOk
  flags : t.probeOk = s.probeOk ∧ t.cfgValid = s.cfgValid ∧ t.mode = s.mode

theorem Keeps.trans {i : Instr} {s t u : State} (h : Keeps i s t) (h' : Keeps i t u) : Keeps i s u where
  toGrows := h.toGrows.trans h'.toGrows
  capture hi := by
    obtain ⟨h1, h2, h3, h4⟩ := h.capture hi
    obtain ⟨h1', h2', h3', h4'⟩ := h'.capture hi
    exact ⟨h1'.trans h1, h2'.trans h2, h3'.trans h3, h4'.trans h4⟩
  selftest hi := (h'.selftest hi).trans (h.selftest hi)
  flags := by
    obtain ⟨h1, h2, h3⟩ := h.flags
    obtain ⟨h1', h2', h3'⟩ := h'.flags
    exact ⟨h1'.trans h1, h2'.trans h2, h3'.trans h3⟩

/-- A change outside those registers. -/
theorem Keeps.of_frame {i : Instr} {s t : State} (hg : Grows s t)
    (h : t = { s with busy := t.busy, fault := t.fault, seqState := t.seqState, seqPc := t.seqPc, seqTbl := t.seqTbl,
                      drainIdx := t.drainIdx, status := t.status, resultLen := t.resultLen, resultData := t.resultData,
                      csN := t.csN, buf := t.buf, obuf := t.obuf, out := t.out, log := t.log, host := t.host,
                      answers := t.answers, draws := t.draws, reply := t.reply, bus := t.bus }) : Keeps i s t := by
  have hsame : ∀ {α : Type} (g : State → α), g t = g _ := fun g => congrArg g h
  exact ⟨hg, fun _ => ⟨hsame State.cfsm, hsame State.pollCnt, hsame State.len, hsame State.lenValid⟩,
    fun _ => hsame State.selftestOk, hsame State.probeOk, hsame State.cfgValid, hsame State.mode⟩

theorem Transacts.keeps {i : Instr} {s t : State} (h : Transacts s t) : Keeps i s t :=
  ⟨h.grows, fun _ => ⟨h.cfsm, h.pollCnt, h.len, h.lenValid⟩, fun _ => h.selftestOk, h.probeOk, h.cfgValid, h.mode⟩

theorem CaptureKeeps.keeps {s t : State} (h : CaptureKeeps s t) : Keeps .capture s t :=
  ⟨h.toGrows, fun hi => absurd rfl hi, fun _ => h.selftestOk, h.probeOk, h.cfgValid, h.mode⟩

/-- An action's turn outside those registers. -/
theorem inTurn_keeps {i : Instr} {action : State → State} {s : State} (h : ∀ b, Keeps i b (action b)) :
    Keeps i s (inTurn action s) := by
  rcases inTurn_cases action s with ⟨host, hrange, -, e⟩ | ⟨fault, host, hrange, -, hfault, e⟩ <;> rw [e]
  · exact Keeps.trans (t := { s with host := host }) (.of_frame (.of_frame (hhost := hrange)) rfl) (h _)
  · exact .of_frame (.of_frame (hfault := hfault) (hhost := hrange)) rfl

theorem respond_keeps {i : Instr} (s : State) (code : Byte) (len : Count) (data : BitVec 32) :
    Keeps i s (s.respond code len data) :=
  inTurn_keeps fun _ => .of_frame .of_frame rfl

/-- A host command under way from `s`, and one that has ended, waits or is stuck. -/
def CommandRuns (i : Instr) (s t : State) : Prop := Keeps i s t ∧ Unanswered s t

def CommandStops (i : Instr) (s t : State) : Prop := Keeps i s t ∧ (Unanswered s t ∨ Answered t)

theorem CommandRuns.write {i : Instr} {s₀ s t : State} (h : CommandRuns i s₀ s) (hk : Keeps i s t) (hu : Unanswered s t) :
    CommandRuns i s₀ t :=
  ⟨h.1.trans hk, h.2.trans hu⟩

theorem commandRuns_kept (i : Instr) (s₀ : State) : CommandKept i (CommandRuns i s₀) (CommandStops i s₀) where
  access h _ ha := ⟨h.1.trans ha.keeps, h.2.transacts ha.toTransacts⟩
  respond h _ hcode hlen := ⟨h.1.trans (respond_keeps ..), h.2.respond hcode hlen⟩
  halt h := ⟨h.1, .inl h.2⟩
  burst {s n} _ _ _ h :=
    have hb := dbBurst_transacts (n.setWidth 23) .buf s
    ⟨h.1.trans hb.keeps, h.2.transacts hb⟩
  flag hi s b h := h.write ⟨.of_frame, fun _ => ⟨rfl, rfl, rfl, rfl⟩,
    fun hne => absurd hi hne, rfl, rfl, rfl⟩ ⟨h.2.busy, rfl, rfl, rfl⟩
  recon _ s h := h.write (inTurn_keeps fun b => .of_frame .of_frame rfl)
    ((Unanswered.refl h.2.busy).inTurn fun b hb => ⟨hb.1, hb.2, hb.3, hb.4⟩)
  play {s r} _ h :=
    have hr := h.write (t := startPlay r s) (.of_frame .of_frame rfl)
      ⟨h.2.busy, rfl, rfl, rfl⟩
    ⟨hr.1, .inl hr.2⟩
  capture hi s hr h := by
    obtain ⟨hk, hr⟩ := capture_keeps h.2.busy hr
    refine ⟨h.1.trans (hi ▸ hk.keeps), hr.imp (fun hu => ?_) id⟩
    exact (h.write (hi ▸ hk.keeps) hu).2

/-- Every host command, whatever the block and the host do (R24, R99, R126, R127, R130). -/
theorem exec_host_stops {i : Instr} (hi : isHostCommand i = true) {s t : State} (h : exec i s = .next t) :
    CommandStops i s t := by
  have hnone : ∀ {f : List FaultReason}, s.fault = [] → ∀ r ∈ s.fault, r ∈ f := fun hf r hr => by simp [hf] at hr
  refine (commandRuns_kept i s).exec hi h (fun hf hb => ?_) (fun host hf _ hrange => ?_) fun host _ _ hrange => ?_
  · exact ⟨.of_frame (.of_frame (hfault := hnone hf)) rfl, .inl ⟨hb, rfl, rfl, rfl⟩⟩
  · exact ⟨.of_frame (.of_frame (hfault := hnone hf) (hhost := hrange)) rfl, .inl ⟨rfl, rfl, rfl, rfl⟩⟩
  · exact ⟨.of_frame (.of_frame (hhost := hrange)) rfl, rfl, rfl, rfl, rfl⟩

/-- A command that comes while BUSY = 1 leaves every register alone (R127). -/
theorem exec_host_busy {i : Instr} (hi : isHostCommand i = true) {s t : State} (hb : s.busy = true)
    (h : exec i s = .next t) : s.fault = [] ∧ t = { s with fault := [.busyViolation], reply := .never } := by
  obtain ⟨course, hcourse⟩ := hostCommand_accept i hi
  rw [hcourse] at h
  obtain ⟨hf, ⟨-, ht⟩ | ⟨hidle, -⟩⟩ := accept_cases h
  · exact ⟨hf, ht⟩
  · rw [hb] at hidle; cases hidle

/-! ## Table entries and transactions -/

theorem afterWrite_keeps (i : Instr) (s : State) : Keeps i s (afterWrite s) ∧ (s.busy = true → Unanswered s (afterWrite s)) := by
  unfold afterWrite
  refine onReply_kept (Mid := fun b => Keeps i s b ∧ (s.busy = true → Unanswered s b)) id
    ⟨.of_frame .of_frame rfl, .refl⟩ (fun _ => ?_) fun v _ => ?_
  · exact ⟨.of_frame .of_frame rfl, fun hb => ⟨hb, rfl, rfl, rfl⟩⟩
  · split
    · exact ⟨.of_frame ⟨rfl, List.prefix_append .., List.prefix_rfl, fun _ h => h, fun h => h⟩ rfl,
        fun hb => ⟨hb, rfl, rfl, rfl⟩⟩
    · exact ⟨.of_frame .of_frame rfl, fun hb => ⟨hb, rfl, rfl, rfl⟩⟩

theorem settleEnd_keeps (i : Instr) (s : State) : Keeps i s (settleEnd s) ∧ (s.busy = true → Unanswered s (settleEnd s)) := by
  unfold settleEnd
  split
  · exact ⟨inTurn_keeps fun _ => .of_frame .of_frame rfl,
      fun hb => (Unanswered.refl hb).inTurn fun b h => ⟨h.1, h.2, h.3, h.4⟩⟩
  · exact ⟨.of_frame .of_frame rfl, .refl⟩

/-- A table entry's action keeps the registers of the host commands and writes no response (R88, R90 to R93). -/
theorem playEntry_keeps (i : Instr) (e : Option (CbAddr × Byte)) (s : State) :
    Keeps i s (playEntry e s) ∧ (s.busy = true → Unanswered s (playEntry e s)) := by
  cases e with
  | none =>
    simp only [playEntry, playEnd]
    exact ⟨inTurn_keeps fun _ => .of_frame .of_frame rfl,
      fun hb => (Unanswered.refl hb).inTurn fun b h => ⟨h.1, h.2, h.3, h.4⟩⟩
  | some e =>
    have hw := cbWrite_transacts e.1 e.2 s
    obtain ⟨hk, hu⟩ := afterWrite_keeps i (cbWrite e.1 e.2 s)
    exact ⟨hw.keeps.trans hk, fun hb => ((Unanswered.refl hb).transacts hw).trans (hu (hw.busy.trans hb))⟩

/-- A table entry or a transaction as an instruction keeps the registers of every host command and writes no response. -/
theorem exec_nonHost_keeps {j : Instr} (hj : isHostCommand j = false) {s t : State} (h : exec j s = .next t) (i : Instr) :
    Keeps i s t ∧ (s.busy = true → Unanswered s t) := by
  have htrans : ∀ {u : State}, Transacts s u → Keeps i s u ∧ (s.busy = true → Unanswered s u) := fun hu =>
    ⟨hu.keeps, fun hb => (Unanswered.refl hb).transacts hu⟩
  cases j with
  | wr8 a v => injection h with h; exact h ▸ playEntry_keeps i (some (shortAddr a, v)) s
  | wr16 a v => injection h with h; exact h ▸ playEntry_keeps i (some (a, v)) s
  | end8 => injection h with h; exact h ▸ playEntry_keeps i none s
  | dbRead a => injection h with h; exact h ▸ htrans (dbRead_transacts a s)
  | dbWrite a v => injection h with h; exact h ▸ htrans (dbWrite_transacts a v s)
  | cbWrite a v => injection h with h; exact h ▸ htrans (cbWrite_transacts a v s)
  | cbRead a => injection h with h; exact h ▸ htrans (cbRead_transacts a s)
  | dbBurst n dst =>
    simp only [exec, execDbBurst] at h
    split at h
    · cases h
    · injection h with h; exact h ▸ htrans (dbBurst_transacts n dst s)
  | selftest | probe | configure | capture | reconstruct | state | cread | cwrite | dread | dwrite | dburst | hostIllegal =>
    cases hj

/-- Every instruction writes only what is its own (R24, R99). -/
theorem exec_keeps {i : Instr} {s t : State} (h : exec i s = .next t) : Keeps i s t := by
  cases hi : isHostCommand i with
  | true => exact (exec_host_stops hi h).1
  | false => exact (exec_nonHost_keeps hi h i).1

/-- While a command runs, no instruction writes what belongs to another, and none gives a response. -/
theorem exec_busy {i : Instr} {s t : State} (hb : s.busy = true) (h : exec i s = .next t) (j : Instr) :
    Keeps j s t ∧ Unanswered s t := by
  cases hi : isHostCommand i with
  | true =>
    obtain ⟨hf, rfl⟩ := exec_host_busy hi hb h
    exact ⟨.of_frame (.of_frame (hfault := fun r hr => by simp [hf] at hr)) rfl, hb, rfl, rfl, rfl⟩
  | false =>
    obtain ⟨hk, hu⟩ := exec_nonHost_keeps hi h j
    exact ⟨hk, hu hb⟩

/-! ## Playback that returns (R96, R116, R137) -/

/-- What a playback that returns to its command leaves unchanged: PROBE writes PROBE_OK only, CONFIGURE CFG_VALID and MODE
only. -/
structure ReturnKeeps (s t : State) : Prop extends Grows s t where
  capture : t.cfsm = s.cfsm ∧ t.pollCnt = s.pollCnt ∧ t.len = s.len ∧ t.lenValid = s.lenValid
  selftest : t.selftestOk = s.selftestOk
  probe : s.seqTbl ≠ .prelude → t.probeOk = s.probeOk
  configure : s.seqTbl = .prelude → t.cfgValid = s.cfgValid ∧ t.mode = s.mode

/-- What keeps every flag keeps those two. -/
theorem ReturnKeeps.then {s t u : State} (h : ReturnKeeps s t) (hk : Keeps .end8 t u) : ReturnKeeps s u := by
  obtain ⟨h1, h2, h3, h4⟩ := h.capture
  obtain ⟨h1', h2', h3', h4'⟩ := hk.capture nofun
  obtain ⟨hprobe, hcfg, hmode⟩ := hk.flags
  exact ⟨h.toGrows.trans hk.toGrows, ⟨h1'.trans h1, h2'.trans h2, h3'.trans h3, h4'.trans h4⟩,
    (hk.selftest nofun).trans h.selftest, fun hs => hprobe.trans (h.probe hs),
    fun hs => ⟨hcfg.trans (h.configure hs).1, hmode.trans (h.configure hs).2⟩⟩

theorem returnRuns_kept (s₀ : State) : Kept (fun s => ReturnKeeps s₀ s ∧ Unanswered s₀ s)
    fun s => ReturnKeeps s₀ s ∧ (Unanswered s₀ s ∨ Answered s) where
  access h _ ha := ⟨h.1.then ha.keeps, h.2.transacts ha.toTransacts⟩
  respond h _ hcode hlen := ⟨h.1.then (respond_keeps ..), h.2.respond hcode hlen⟩
  halt h := ⟨h.1, .inl h.2⟩

/-- The command to which a playback returns (R96, R116). -/
theorem playReturned_keeps {s : State} (hb : s.busy = true) :
    ReturnKeeps s (playReturned s) ∧ (Unanswered s (playReturned s) ∨ Answered (playReturned s)) := by
  have hs : ReturnKeeps s s ∧ Unanswered s s :=
    ⟨⟨Grows.refl s, ⟨rfl, rfl, rfl, rfl⟩, rfl, fun _ => rfl, fun _ => ⟨rfl, rfl⟩⟩, .refl hb⟩
  unfold playReturned
  split
  · rename_i m hmode
    have hflag : ∀ (c : Bool) (m' : Byte), ReturnKeeps s s ∧ Unanswered s s →
        ReturnKeeps s { s with cfgValid := c, mode := m' } ∧ Unanswered s { s with cfgValid := c, mode := m' } :=
      fun c m' h => ⟨⟨.of_frame, h.1.capture, h.1.selftest, h.1.probe, fun hp => by rw [hmode] at hp; cases hp⟩,
        hb, rfl, rfl, rfl⟩
    exact (returnRuns_kept s).configureEnd (hflag false 0xFF) (hflag true m) hs
  · rename_i hprelude
    refine (returnRuns_kept s).probeIdentity (fun {u} b h => ⟨⟨h.1.toGrows.trans .of_frame, h.1.capture, h.1.selftest,
      fun hp => absurd hprelude hp, h.1.configure⟩, h.2.1, h.2.2, h.2.3, h.2.4⟩) hs

/-! ## Every step -/

theorem hostTurn_keeps (i : Instr) (s : State) : Keeps i s s.hostTurn :=
  .of_frame (hostTurn_grows s) (by rw [(hostTurn_frame s).1])

/-- What the frame's instruction leaves is taken by the capture that polls, or is left as it is. -/
theorem afterFrame_grows (u : State) : Grows u (afterFrame u) := by
  unfold afterFrame
  split
  · rename_i h
    rw [Bool.and_eq_true, beq_iff_eq] at h
    exact (pollReturned_stops h.1 h.2).1.toGrows
  · exact .refl u

theorem afterEntry_grows (u : State) : Grows u (afterEntry u) := by
  unfold afterEntry
  split
  · rename_i h
    rw [Bool.and_eq_true] at h
    exact (playReturned_keeps h.1).1.toGrows
  · exact .refl u

theorem hostStore_frame {b : HostBuffer} {i : Nat} {v : Byte} {s t : State} (h : hostStore b i v s = .next t) :
    i < bufferSize s.params b ∧
      (b = .buf ∧ t = { s with buf := s.buf.write i v } ∨ b = .obuf ∧ t = { s with obuf := s.obuf.write i v }) := by
  unfold hostStore at h
  split at h
  · cases h
  · refine ⟨by omega, ?_⟩
    cases b <;> injection h with h
    · exact .inl ⟨rfl, h.symm⟩
    · exact .inr ⟨rfl, h.symm⟩

/-- A host store in the state after its move has been taken changes one buffer. -/
theorem store_keeps {j : Instr} {b : HostBuffer} {i : Nat} {v : Byte} {rest : List HostMove} {s u : State}
    (hh : s.host = .store b i v :: rest) (h : hostStore b i v { s with host := rest } = .next u) : Keeps j s u := by
  have hrest : s.host.all (moveInRange s.params) = true → rest.all (moveInRange s.params) = true := fun hall => by
    rw [hh, List.all_cons, Bool.and_eq_true] at hall
    exact hall.2
  obtain ⟨-, ⟨-, rfl⟩ | ⟨-, rfl⟩⟩ := hostStore_frame h
  · exact .of_frame (.of_frame (hhost := hrest)) rfl
  · exact .of_frame (.of_frame (hhost := hrest)) rfl

/-- Taking the next move from the host's list. -/
theorem Grows.nextMove {s : State} {m : HostMove} {rest : List HostMove} (hh : s.host = m :: rest) :
    Grows s { s with host := rest } :=
  .of_frame (hhost := fun hall => by rw [hh, List.all_cons, Bool.and_eq_true] at hall; exact hall.2)

theorem Steps.grows {s t : State} (h : Steps s t) : Grows s t := by
  cases h with
  | waits => exact hostTurn_grows s
  | frame _ _ _ hexec => exact (Grows.trans (t := { s with bus := none }) .of_frame (exec_keeps hexec).toGrows).trans (afterFrame_grows _)
  | entry => exact ((playEntry_keeps .end8 _ s).1.toGrows).trans (afterEntry_grows _)
  | settled => exact (settleEnd_keeps .end8 s).1.toGrows
  | idle => exact .refl s
  | command _ _ _ hh hexec => exact (Grows.nextMove hh).trans (exec_keeps hexec).toGrows
  | store _ _ _ hh hstore => exact (store_keeps (j := .end8) hh hstore).toGrows

/-- Settles O11: each source of a step only appends, in its instruction and in the command that takes its result. -/
theorem historyOnlyGrows : Obligations.HistoryOnlyGrows := by
  intro s t h
  obtain ⟨-, -, hs⟩ := step_next h
  have hg := hs.grows
  exact ⟨hg.params, hg.log, hg.out, hg.fault⟩

/-- A frame in a busy block that is not in CAPTURING is not taken by a capture. -/
theorem afterFrame_of_ne {u : State} (h : u.cfsm ≠ .capturing) : afterFrame u = u := by
  simp [afterFrame, h]

/-- What an entry leaves to its command, while one runs. -/
theorem afterEntry_keeps {u : State} (hb : u.busy = true) :
    ReturnKeeps u (afterEntry u) ∧ (Unanswered u (afterEntry u) ∨ Answered (afterEntry u)) := by
  unfold afterEntry
  split
  · exact playReturned_keeps hb
  · exact ⟨⟨Grows.refl u, ⟨rfl, rfl, rfl, rfl⟩, rfl, fun _ => rfl, fun _ => ⟨rfl, rfl⟩⟩, .inl (.refl hb)⟩

/-- Settles O52: the instructions by `exec_keeps`, and the steps of a running command source by source. -/
theorem onlyCaptureMovesCfsm : Obligations.OnlyCaptureMovesCfsm := by
  refine ⟨fun i s t hi h => (exec_keeps h).capture hi, fun s t hb hpoll h => ?_⟩
  obtain ⟨-, -, hs⟩ := step_next h
  cases hs with
  | waits => exact (hostTurn_keeps .end8 s).capture nofun
  | frame _ hbus _ hexec =>
    have hc : s.cfsm ≠ .capturing := by
      rcases hpoll with hnone | hc
      · rw [hnone] at hbus; cases hbus
      · exact hc
    have hk := (exec_busy (s := { s with bus := none }) hb hexec .end8).1.capture nofun
    rw [afterFrame_of_ne (by rw [hk.1]; exact hc)]
    exact hk
  | @entry tbl e =>
    obtain ⟨hk, hu⟩ := playEntry_keeps .end8 e s
    obtain ⟨h1, h2, h3, h4⟩ := hk.capture nofun
    obtain ⟨h1', h2', h3', h4'⟩ := (afterEntry_keeps (hu hb).busy).1.capture
    exact ⟨h1'.trans h1, h2'.trans h2, h3'.trans h3, h4'.trans h4⟩
  | settled => exact (settleEnd_keeps .end8 s).1.capture nofun
  | idle hidle | command hidle | store hidle => rw [hb] at hidle; cases hidle

/-! ## The flags (R24, R137) -/

theorem playEntry_seqTbl (e : Option (CbAddr × Byte)) (s : State) : (playEntry e s).seqTbl = s.seqTbl := by
  cases e with
  | none =>
    simp only [playEntry, playEnd]
    rcases inTurn_cases (fun s => { s with seqState := .idle }.returns (.ok 0)) s with
      ⟨host, -, -, e⟩ | ⟨fault, host, -, -, -, e⟩
    all_goals exact (congrArg State.seqTbl e).trans rfl
  | some e =>
    have hw := (cbWrite_transacts e.1 e.2 s).seqTbl
    simp only [playEntry, seqWrite, afterWrite, onReply]
    split
    · split <;> exact hw
    all_goals exact hw

theorem afterFrame_flags (u : State) : (afterFrame u).selftestOk = u.selftestOk ∧ (afterFrame u).probeOk = u.probeOk ∧
    (afterFrame u).cfgValid = u.cfgValid ∧ (afterFrame u).mode = u.mode := by
  unfold afterFrame
  split
  · rename_i h
    rw [Bool.and_eq_true, beq_iff_eq] at h
    have hk := (pollReturned_stops h.1 h.2).1
    exact ⟨hk.selftestOk, hk.probeOk, hk.cfgValid, hk.mode⟩
  · exact ⟨rfl, rfl, rfl, rfl⟩

/-- What a step of an entry leaves of the flags: the command to which playback returns writes its own (R96, R116). -/
theorem entry_flags (e : Option (CbAddr × Byte)) (s : State) :
    (afterEntry (playEntry e s)).selftestOk = s.selftestOk ∧
    (s.seqTbl ≠ .prelude → (afterEntry (playEntry e s)).probeOk = s.probeOk) ∧
    (s.seqTbl = .prelude → (afterEntry (playEntry e s)).cfgValid = s.cfgValid ∧
      (afterEntry (playEntry e s)).mode = s.mode) := by
  have hk := (playEntry_keeps .end8 e s).1
  obtain ⟨hprobe, hcfg, hmode⟩ := hk.flags
  have hself := hk.selftest nofun
  unfold afterEntry
  split
  · rename_i h
    rw [Bool.and_eq_true] at h
    have hr := (playReturned_keeps h.1).1
    have hprobe' := hr.probe
    have hconfigure := hr.configure
    rw [playEntry_seqTbl] at hprobe' hconfigure
    exact ⟨hr.selftest.trans hself, fun hs => (hprobe' hs).trans hprobe,
      fun hs => ⟨(hconfigure hs).1.trans hcfg, (hconfigure hs).2.trans hmode⟩⟩
  · exact ⟨hself, fun _ => hprobe, fun _ => ⟨hcfg, hmode⟩⟩

/-- Settles O53: the instructions by `exec_keeps`; of the sources of a step only an entry that ends its playback writes
PROBE_OK, CFG_VALID or MODE. -/
theorem flagsWrittenOnlyByTheirCommand : Obligations.FlagsWrittenOnlyByTheirCommand := by
  refine ⟨fun i s t h => ⟨(exec_keeps h).selftest, (exec_keeps h).flags⟩, fun s t h => ?_⟩
  obtain ⟨-, -, hs⟩ := step_next h
  have hkept : ∀ {i : Instr} {u : State}, Keeps i s u → (s.busy = true → u.selftestOk = s.selftestOk) →
      (s.busy = true → u.selftestOk = s.selftestOk) ∧ (s.seqState = .idle ∨ s.seqTbl ≠ .prelude → u.probeOk = s.probeOk) ∧
      (s.seqState = .idle ∨ s.seqTbl = .prelude → u.cfgValid = s.cfgValid ∧ u.mode = s.mode) := fun hk hself =>
    have ⟨hprobe, hcfg, hmode⟩ := hk.flags
    ⟨hself, fun _ => hprobe, fun _ => ⟨hcfg, hmode⟩⟩
  cases hs with
  | waits => exact hkept (hostTurn_keeps .end8 s) fun _ => (hostTurn_keeps .end8 s).selftest nofun
  | frame _ _ _ hexec =>
    rename_i f i u _ _ _
    obtain ⟨hself, hprobe, hcfg, hmode⟩ := afterFrame_flags u
    obtain ⟨hprobe', hcfg', hmode'⟩ := (exec_keeps hexec).flags
    exact ⟨fun hb => hself.trans ((exec_busy (s := { s with bus := none }) hb hexec .end8).1.selftest nofun),
      fun _ => hprobe.trans hprobe', fun _ => ⟨hcfg.trans hcfg', hmode.trans hmode'⟩⟩
  | @entry tbl e _ _ hseq =>
    obtain ⟨hself, hprobe, hconfigure⟩ := entry_flags e s
    have hrun : s.seqState ≠ .idle := by simp [hseq]
    exact ⟨fun _ => hself, fun h => hprobe (h.resolve_left hrun), fun h => hconfigure (h.resolve_left hrun)⟩
  | settled => exact hkept (settleEnd_keeps .end8 s).1 fun _ => (settleEnd_keeps .end8 s).1.selftest nofun
  | idle => exact ⟨fun _ => rfl, fun _ => rfl, fun _ => ⟨rfl, rfl⟩⟩
  | command hidle _ _ hh hexec =>
    obtain ⟨hprobe, hflags⟩ := (exec_keeps hexec).flags
    exact ⟨fun hb => absurd hb (by simp [hidle]), fun _ => hprobe, fun _ => hflags⟩
  | store _ _ _ hh hstore => exact hkept (store_keeps (j := .end8) hh hstore) fun _ => (store_keeps (j := .end8) hh hstore).selftest nofun

/-! ## The response of a step -/

theorem hostTurn_unanswered {s : State} (hb : s.busy = true) : Unanswered s s.hostTurn := by
  rw [(hostTurn_frame s).1]
  exact ⟨hb, rfl, rfl, rfl⟩

theorem afterFrame_answers {u : State} (hb : u.busy = true) : Unanswered u (afterFrame u) ∨ Answered (afterFrame u) := by
  unfold afterFrame
  split
  · rename_i h
    rw [Bool.and_eq_true, beq_iff_eq] at h
    exact (pollReturned_stops h.1 h.2).2.imp id CaptureAnswered.answered
  · exact .inl (.refl hb)

/-- A step of a running command gives no response, or one of the table's (R130). -/
theorem Steps.answers {s t : State} (h : Steps s t) (hb : s.busy = true) : Unanswered s t ∨ Answered t := by
  cases h with
  | waits => exact .inl (hostTurn_unanswered hb)
  | frame _ _ _ hexec =>
    have hu := Unanswered.trans (s := s) (t := { s with bus := none }) ⟨hb, rfl, rfl, rfl⟩
      (exec_busy (s := { s with bus := none }) hb hexec .end8).2
    exact (afterFrame_answers hu.busy).imp hu.trans id
  | @entry _ e =>
    have hu := (playEntry_keeps .end8 e s).2 hb
    exact (afterEntry_keeps hu.busy).2.imp hu.trans id
  | settled => exact .inl ((settleEnd_keeps .end8 s).2 hb)
  | idle hidle | command hidle | store hidle => rw [hb] at hidle; cases hidle

/-- Settles O54: a command that has given no response is still BUSY, and one that has given its response is not. -/
theorem endedCommandReportsOneStatus : Obligations.EndedCommandReportsOneStatus := by
  intro s t h
  have hresponse : Unanswered s t ∨ Answered t := by
    rcases h with ⟨i, hi, -, hexec⟩ | ⟨hb, hstep⟩
    · exact (exec_host_stops hi hexec).2
    · exact (step_next hstep).2.2.answers hb
  rcases hresponse with hu | ha
  · exact ⟨fun hb => absurd hb (by simp [hu.busy]), fun _ => ⟨hu.status, hu.resultLen, hu.resultData⟩⟩
  · exact ⟨fun _ => ⟨ha.status, ha.resultLen⟩, fun hb => absurd hb (by simp [ha.idle])⟩

/-! ## CAPTURE and its polls -/

theorem decode_pollFrame (p : Params) : decode p (pollFrame p) = .ok (.dbRead (dbAddr p.regTrig)) :=
  (decode_encode_dataBus p _ 0 0 .buf).1

/-- The step that takes the next poll out of the transport unit: the poll, and what follows it (R104). -/
theorem step_pollFrame {s : State} (hwf : recordWf s.params = true) (hf : s.fault = [])
    (hbus : s.bus = some (pollFrame s.params)) (hb : s.busy = true) (hc : s.cfsm = .capturing) (hr : s.reply ≠ .never) :
    step s = .next (poll { s with bus := none }) := by
  have ht := dbRead_transacts (dbAddr s.params.regTrig) { s with bus := none }
  rw [step_frame hwf hf (stuck_of_bus hbus hr) hbus, fetchFrame, decode_pollFrame]
  simp only [runFetched, exec, execDbRead, resume, afterFrame]
  rw [if_pos (by rw [ht.busy, ht.cfsm, hb, hc]; rfl)]
  rfl

theorem step_polling {s : State} (h : polling s) : step s = .next (poll { s with bus := none }) := by
  obtain ⟨hwf, hclear, hb, hc, hbus, hr⟩ := h
  exact step_pollFrame hwf ((clear_iff s).mp hclear).1 hbus hb hc hr

theorem polling_stops {s t : State} (hp : polling s) (h : step s = .next t) : CaptureStops { s with bus := none } t := by
  rw [step_polling hp] at h
  injection h with h
  obtain ⟨-, -, hb, hc, -, hr⟩ := hp
  rw [← h]
  exact (captureRuns_kept _).poll hc (fun _ => hr) ⟨.refl _, .refl hb⟩

/-- What an instruction CAPTURE keeps, whatever the block and the host do. -/
theorem exec_capture_keeps {s t : State} (h : exec .capture s = .next t) : CaptureKeeps s t := by
  simp only [exec, execCapture] at h
  obtain ⟨hf, ⟨-, rfl⟩ | ⟨-, host, hrange, rfl | hcourse⟩⟩ := accept_cases h
  · exact .of_frame rfl (fun r hr => by simp [hf] at hr)
  · exact .of_frame rfl (fun r hr => by simp [hf] at hr) hrange
  · split at hcourse
    · cases hcourse
    · injection hcourse with hcourse
      rw [← hcourse]
      exact CaptureKeeps.trans (t := { s.begin with host := host }) (.of_frame rfl (hhost := hrange)) (capture_keeps rfl rfl).1

/-- Settles O51: CAPTURE writes none of these in any of its stages, nor does a later poll's step. -/
theorem captureFrame : Obligations.CaptureFrame := by
  rintro s t (h | ⟨hp, h⟩)
  · have hk := exec_capture_keeps h
    exact ⟨hk.selftestOk, hk.probeOk, hk.cfgValid, hk.mode, hk.seqState, hk.seqPc, hk.seqTbl, hk.params, hk.obufKept,
      hk.bufKept, hk.outKept⟩
  · have hk := (polling_stops hp h).1
    exact ⟨hk.selftestOk, hk.probeOk, hk.cfgValid, hk.mode, hk.seqState, hk.seqPc, hk.seqTbl, hk.params, hk.obufKept,
      hk.bufKept, hk.outKept⟩

/-- Settles O50: past its gate a capture that has ended has ended OK or by `abort`. -/
theorem captureFailureReturnsToIdle : Obligations.CaptureFailureReturnsToIdle := by
  intro s t h hidle hne
  have hstops : ∃ u, CaptureStops u t := by
    rcases h with ⟨hacc, hwf, hg, h⟩ | ⟨hp, h⟩
    · rw [exec_capture_wf hacc hwf, capture, if_pos (show s.begin.gateOpen = true from hg)] at h
      injection h with h
      exact ⟨s.begin, h ▸ clearFifo_stops rfl rfl⟩
    · exact ⟨_, polling_stops hp h⟩
  obtain ⟨u, -, hu | ha⟩ := hstops
  · rw [hu.busy] at hidle; cases hidle
  · obtain ⟨hcode, hc, hcnt, hlen, hdata⟩ := ha.status.resolve_left hne
    exact ⟨hc, hcnt, hlen, hdata, hcode⟩

end Sys2Proof.Machine
end

section
/-! SUPPORT. The invariant of the machine (10_state.md, 20_memory.md) is kept by every step, and a block that meets it and
is not faulted always steps. -/

namespace Sys2Proof.Machine

/-! ## Where playback stands in its table (R86, R89) -/

/-- Below the number of leading entries there is an entry, and at it there is none. -/
theorem takeWhile_isSome_getElem? {α : Type} (l : List (Option α)) :
    (∀ i, i < (l.takeWhile Option.isSome).length → ∃ e, l[i]? = some (some e)) ∧
    (l[(l.takeWhile Option.isSome).length]? = none ∨ l[(l.takeWhile Option.isSome).length]? = some none) := by
  induction l with
  | nil => simp
  | cons x l ih =>
    cases x with
    | none => simp
    | some e =>
      refine ⟨fun i hi => ?_, by simpa using ih.2⟩
      cases i with
      | zero => exact ⟨e, rfl⟩
      | succ i => exact ih.1 i (by simpa using hi)

/-- A TBL8 table holds its terminator, so its end is one of its entries (R86). -/
theorem tbl8_end {ws : List (BitVec 16)} (h : 0xFFFF ∈ ws) :
    (RegisterTable.tbl8 ws).entries[writeCount (.tbl8 ws)]? = some none := by
  refine ((takeWhile_isSome_getElem? _).2).resolve_left fun hnone => ?_
  have hall : ∀ e ∈ (RegisterTable.tbl8 ws).entries, e.isSome = true := by
    rw [List.getElem?_eq_none_iff] at hnone
    have hpre := (List.takeWhile_prefix Option.isSome (l := (RegisterTable.tbl8 ws).entries)).eq_of_length_le hnone
    exact List.takeWhile_eq_self_iff.mp hpre
  have := hall none (List.mem_map.mpr ⟨_, h, rfl⟩)
  cases this

/-- Inside a table that is well formed playback finds an entry: a write before the table's end, and at its end none. -/
theorem tableEntry_of_le {v : Variant} {t : RegisterTable} (hwf : tableWf v t = true) {pc : Nat} (h : pc ≤ writeCount t) :
    (pc < writeCount t ∧ ∃ e, tableEntry t pc = some (some e) ∧ t.entries[pc]? = some (some e)) ∨
    (pc = writeCount t ∧ tableEntry t pc = some none) := by
  have hentry := (takeWhile_isSome_getElem? t.entries).1 pc
  rcases (tableWf_iff v t).mp hwf with ⟨ws, rfl, -, hmem, -⟩ | ⟨ws, rfl, -, -⟩
  · have hopen : tableEntry (.tbl8 ws) pc = (RegisterTable.tbl8 ws).entries[pc]? := by
      rw [tableEntry, atTableEnd, if_neg Bool.false_ne_true]
    rcases Nat.lt_or_eq_of_le h with hlt | rfl
    · obtain ⟨e, he⟩ := hentry hlt
      exact .inl ⟨hlt, e, hopen.trans he, he⟩
    · exact .inr ⟨rfl, hopen.trans (tbl8_end hmem)⟩
  · rcases Nat.lt_or_eq_of_le h with hlt | rfl
    · obtain ⟨e, he⟩ := hentry hlt
      refine .inl ⟨hlt, e, ?_, he⟩
      rw [tableEntry, if_neg, he]
      rw [writeCount_tbl16] at hlt
      simp [atTableEnd]
      omega
    · refine .inr ⟨rfl, ?_⟩
      rw [tableEntry, if_pos]
      simp [atTableEnd, writeCount_tbl16]

theorem writeCount_le {v : Variant} {t : RegisterTable} (hwf : tableWf v t = true) : writeCount t ≤ 65535 := by
  rcases (tableWf_iff v t).mp hwf with ⟨ws, rfl, -, -, h⟩ | ⟨ws, rfl, -, h⟩
  · exact h
  · rwa [writeCount_tbl16]

/-! ## A running command (R14, R16, R17, R26) -/

/-- A running command between its actions, with the sequencer idle and nothing in the transport unit. -/
structure State.Running (s : State) : Prop where
  record : recordWf s.params = true
  inv : s.Inv
  busy : s.busy = true
  bus : s.bus = none
  seqIdle : s.seqState = .idle

/-- While a command may act, chip select is high. -/
theorem State.Inv.csN_of_ne_never {s : State} (h : s.Inv) (hr : s.reply ≠ .never) : s.csN = true :=
  h.csHigh.resolve_right fun hn => hr hn.2

/-- A command that is stopped by a fault keeps the invariant (R127). -/
theorem State.Inv.halted {s : State} (h : s.Inv) (hb : s.busy = true) (hbus : s.bus = none) {fault : List FaultReason}
    {host : List HostMove} (hhost : host.all (moveInRange s.params) = true) :
    ({ s with fault := fault, host := host, reply := .never } : State).Inv :=
  { h with
    csHigh := .inr ⟨hb, rfl⟩
    neverBusy := fun _ => hb
    faultBusy := fun _ => ⟨hb, rfl⟩
    busPoll := .inl hbus
    hostRange := hhost }

/-- A transaction of a running command keeps the invariant, if what it writes to BUF stays in BUF (R47, R51). -/
theorem State.Inv.transacts {s t : State} (h : s.Inv) (hb : s.busy = true) (hbus : s.bus = none) (hl : s.live)
    (ht : Transacts s t) (hwf : t.buf.wf = true) (hin : t.buf.within s.params.cap = true) : t.Inv where
  bufWf := hwf
  obufWf := by rw [ht.obuf]; exact h.obufWf
  bufWithin := by rw [ht.params]; exact hin
  obufWithin := by rw [ht.params, ht.obuf]; exact h.obufWithin
  restCfsm hi := by rw [ht.busy, hb] at hi; cases hi
  restSeq hi := by rw [ht.busy, hb] at hi; cases hi
  csHigh := by
    rw [ht.busy]
    by_cases hf : s.fault = []
    · exact (ht.select (h.csN_of_ne_never (hl hf))).imp id fun hn => ⟨hb, hn⟩
    · obtain ⟨r, hr⟩ := List.exists_mem_of_ne_nil _ hf
      exact .inr ⟨hb, ht.halted (List.ne_nil_of_mem (ht.fault r hr))⟩
  neverBusy _ := ht.busy.trans hb
  faultBusy hf := ⟨ht.busy.trans hb, ht.halted hf⟩
  busPoll := .inl (ht.bus.trans hbus)
  seqRuns hs := by
    rw [ht.seqState] at hs
    have := h.seqRuns hs
    rwa [State.seqInTable, ht.params, ht.seqTbl, ht.seqPc, ht.seqState]
  seqCfsm hs := by
    rw [ht.seqState] at hs
    rw [ht.cfsm]
    exact h.seqCfsm hs
  modeKnown := by rw [ht.mode, ht.params]; exact h.modeKnown
  cfgMode hc := by
    rw [ht.cfgValid] at hc
    rw [ht.mode, ht.params]
    exact h.cfgMode hc
  statusCode := by rw [ht.status]; exact h.statusCode
  pollBound := by rw [ht.params, ht.pollCnt]; exact h.pollBound
  pollNone := by rw [ht.params, ht.pollCnt]; exact h.pollNone
  hostRange := by rw [ht.params]; exact ht.host h.hostRange

theorem State.Running.transacts {s t : State} (h : s.Running) (hl : s.live) (ht : Transacts s t) (hwf : t.buf.wf = true)
    (hin : t.buf.within s.params.cap = true) : t.Running where
  record := by rw [ht.params]; exact h.record
  inv := h.inv.transacts h.busy h.bus hl ht hwf hin
  busy := ht.busy.trans h.busy
  bus := ht.bus.trans h.bus
  seqIdle := ht.seqState.trans h.seqIdle

theorem State.Running.access {s t : State} (h : s.Running) (hl : s.live) (ha : Accesses s t) : t.Running :=
  h.transacts hl ha.toTransacts (by rw [ha.bufKept]; exact h.inv.bufWf) (by rw [ha.bufKept]; exact h.inv.bufWithin)

/-- A burst that fits keeps BUF in its size (R51, R80). -/
theorem State.Running.burst {s : State} (h : s.Running) (hl : s.live) {n : Count} {dst : BurstDst}
    (hfit : dst = .buf → n.toNat ≤ s.params.cap) : (dbBurst n dst s).Running := by
  obtain ⟨hout, hbuf⟩ := dbBurst_buffers n dst s
  have hkept : (dbBurst n dst s).buf = s.buf → (dbBurst n dst s).Running := fun e =>
    h.transacts hl (dbBurst_transacts n dst s) (by rw [e]; exact h.inv.bufWf) (by rw [e]; exact h.inv.bufWithin)
  cases dst with
  | out => exact hkept (hout rfl)
  | buf =>
    rcases (hbuf rfl).2 with e | ⟨bytes, hlen, e⟩
    · exact hkept e
    · refine h.transacts hl (dbBurst_transacts n .buf s) ?_ ?_ <;> rw [e]
      · exact Memory.writeBytes_wf _ _ _ h.inv.bufWf
      · exact Memory.writeBytes_within _ _ _ _ h.inv.bufWithin (by rw [hlen, Nat.zero_add]; exact hfit rfl)

/-- An action's turn in a running command. -/
theorem State.Running.inTurn {s : State} (h : s.Running) {action : State → State}
    (hact : ∀ host, ({ s with host := host } : State).Running → (action { s with host := host }).Running) :
    (inTurn action s).Running := by
  rcases inTurn_cases action s with ⟨host, hrange, -, e⟩ | ⟨fault, host, hrange, -, -, e⟩ <;> rw [e]
  · exact hact host ⟨h.record, { h.inv with hostRange := hrange h.inv.hostRange }, h.busy, h.bus, h.seqIdle⟩
  · exact ⟨h.record, h.inv.halted h.busy h.bus (hrange h.inv.hostRange), h.busy, h.bus, h.seqIdle⟩

/-- Reconstruction writes OBUF bytes 0 to T*T - 1 only (R51, R121). -/
theorem State.Running.reconstruct {s : State} (h : s.Running) : (reconstruct s).Running := by
  refine h.inTurn fun host hh => ⟨hh.record, { hh.inv with obufWf := ?_, obufWithin := ?_ }, hh.busy, hh.bus, hh.seqIdle⟩
  · exact Memory.writeBytes_wf _ _ _ h.inv.obufWf
  · exact Memory.writeBytes_within _ _ _ _ h.inv.obufWithin (by simp [pixels, emitPixels])

/-- The end of a command at rest (R16, R130). -/
theorem State.Running.respond {s : State} (h : s.Running) (hl : s.live) (hrest : s.cfsm = .idle ∨ s.cfsm = .cleared)
    {code : Byte} {len : Count} {data : BitVec 32} (hcode : code.toNat ≤ 9) : (s.respond code len data).Inv := by
  rcases respond_cases s code len data with ⟨host, hrange, hf, e⟩ | ⟨fault, host, hrange, -, -, e⟩ <;> rw [e]
  · exact { h.inv with
      restCfsm := fun _ => hrest
      restSeq := fun _ => h.seqIdle
      csHigh := .inl (h.inv.csN_of_ne_never (hl hf))
      neverBusy := fun hn => absurd hn (hl hf)
      faultBusy := fun hne => absurd hf hne
      busPoll := .inl h.bus
      statusCode := .inr hcode
      hostRange := hrange h.inv.hostRange }
  · exact h.inv.halted h.busy h.bus (hrange h.inv.hostRange)

/-- CFSM moves while a command runs; POLL_CNT is kept or cleared (R16, R23). -/
theorem State.Running.move {s : State} (h : s.Running) (c : Cfsm) {n : Nat} (hn : n = s.pollCnt ∨ n = 0) :
    ({ s with cfsm := c, pollCnt := n } : State).Running := by
  refine ⟨h.record, { h.inv with
    restCfsm := fun hi => ?_, seqCfsm := fun hs => absurd h.seqIdle hs, busPoll := .inl h.bus
    pollBound := fun k hk => ?_, pollNone := fun hk => ?_ }, h.busy, h.bus, h.seqIdle⟩
  · rw [show s.busy = true from h.busy] at hi; cases hi
  · rcases hn with rfl | rfl
    · exact h.inv.pollBound k hk
    · exact (recordFacts h.record).pollLimit k hk
  · rcases hn with rfl | rfl
    · exact h.inv.pollNone hk
    · rfl

/-! ## CAPTURE and the host commands -/

theorem running_captureKept : CaptureKept State.Running State.Inv where
  access h hl ha := h.access hl ha
  header _ h := h.inTurn fun host hh => ⟨hh.record, { hh.inv with }, hh.busy, hh.bus, hh.seqIdle⟩
  burst {s} hfit hl h := by
    refine h.burst hl fun hdst => hfit ?_
    cases hp : s.params.push
    · rfl
    · simp [drainDst, hp] at hdst
  recon _ h := h.reconstruct
  move c n hn h := h.move c hn
  length _ h := ⟨h.record, { h.inv with }, h.busy, h.bus, h.seqIdle⟩
  await n hc hr hnone hsome h :=
    { h.inv with
      busPoll := .inr ⟨rfl, h.busy, hc, h.seqIdle, hr⟩
      pollBound := hsome
      pollNone := fun hk => (hnone hk).trans (h.inv.pollNone hk) }
  fails {s code} hcode hl h :=
    (h.move .idle (.inr rfl)).respond (s := { s with cfsm := .idle, pollCnt := 0 }) hl (.inl rfl) (captureFailure_le hcode)
  ends _ _ hrest hl h := h.respond hl hrest (by decide)
  halt h := h.inv

/-- A running command with CFSM at rest: every command but CAPTURE (R16). -/
def State.Resting (s : State) : Prop := s.Running ∧ (s.cfsm = .idle ∨ s.cfsm = .cleared)

theorem State.Resting.access {s t : State} (h : s.Resting) (hl : s.live) (ha : Accesses s t) : t.Resting :=
  ⟨h.1.access hl ha, by rw [ha.cfsm]; exact h.2⟩

theorem resting_kept : Kept State.Resting State.Inv where
  access h hl ha := h.access hl ha
  respond h hl hcode _ := h.1.respond hl h.2 hcode
  halt h := h.1.inv

/-- CAPTURE keeps the invariant. -/
theorem State.Resting.capture {s : State} (h : s.Resting) (hr : s.reply = .none) : (capture s).Inv := by
  unfold Machine.capture
  split
  · exact running_captureKept.clearFifo (live_of_none hr) h.1
  · exact resting_kept.raise h (live_of_none hr) (by decide)

/-- A playback of a table starts at its first entry (R88). -/
theorem State.Resting.startPlay {s : State} (h : s.Resting) {r : TableRef} {t : RegisterTable}
    (ht : tableOf s.params r = some t) : (startPlay r s).Inv :=
  { h.1.inv with
    restSeq := fun hi => absurd (show s.busy = false from hi) (by simp [h.1.busy])
    busPoll := .inl h.1.bus
    seqRuns := fun _ => ⟨t, ht, Nat.zero_le _, nofun⟩
    seqCfsm := fun _ => h.2 }

theorem resting_commandKept (i : Instr) : CommandKept i State.Resting State.Inv where
  toKept := resting_kept
  burst {s n} _ hfit hl h := by
    refine ⟨h.1.burst hl fun _ => ?_, by rw [(dbBurst_transacts _ _ s).cfsm]; exact h.2⟩
    simp only [badBurst, decide_eq_false_iff_not, not_or, not_le, not_lt] at hfit
    rw [BitVec.toNat_setWidth, Nat.mod_eq_of_lt hfit.1]
    exact hfit.2
  flag _ s b h := ⟨⟨h.1.record, { h.1.inv with }, h.1.busy, h.1.bus, h.1.seqIdle⟩, h.2⟩
  recon _ s h := ⟨h.1.reconstruct, by rw [reconstruct_cfsm]; exact h.2⟩
  play {s r} hr h := by
    rcases hr with ⟨-, rfl⟩ | ⟨m, -, rfl⟩
    · exact h.startPlay rfl
    · obtain ⟨t, ht⟩ := lookup_of_mem ((recordFacts h.1.record).resolve_mem m)
      exact h.startPlay ht
  capture _ s hr h := h.capture hr

/-- Every host command between commands keeps the invariant. -/
theorem exec_host_inv {i : Instr} (hi : isHostCommand i = true) {s t : State} (hwf : recordWf s.params = true)
    (h : s.Inv) (hb : s.busy = false) (hbus : s.bus = none) (hexec : exec i s = .next t) : t.Inv := by
  refine (resting_commandKept i).exec hi hexec (fun _ hbusy => ?_) (fun host _ _ hrange => ?_) fun host hf _ hrange => ?_
  · rw [hb] at hbusy; cases hbusy
  · have hrun : ({ s with busy := true } : State).Inv :=
      { h with
        restCfsm := nofun
        restSeq := nofun
        csHigh := .inl ((h.csHigh).resolve_right fun hn => by rw [hb] at hn; cases hn.1)
        neverBusy := fun _ => rfl
        faultBusy := fun hne => ⟨rfl, (h.faultBusy hne).2⟩
        busPoll := .inl hbus }
    exact hrun.halted rfl hbus (hrange h.hostRange)
  · exact ⟨⟨hwf, { h with
      restCfsm := nofun
      restSeq := nofun
      csHigh := .inl ((h.csHigh).resolve_right fun hn => by rw [hb] at hn; cases hn.1)
      neverBusy := nofun
      faultBusy := fun hne => absurd hf hne
      busPoll := .inl hbus
      hostRange := hrange h.hostRange }, rfl, hbus, h.restSeq hb⟩, h.restCfsm hb⟩

/-! ## Playback (R88 to R96, R116) -/

/-- A running command that plays a table, or to which its playback returns: CFSM is at rest. -/
structure State.Playing (s : State) : Prop where
  record : recordWf s.params = true
  inv : s.Inv
  busy : s.busy = true
  bus : s.bus = none
  rest : s.cfsm = .idle ∨ s.cfsm = .cleared
  table : ∃ t, tableOf s.params s.seqTbl = some t

theorem State.Playing.halted {s : State} (h : s.Playing) {fault : List FaultReason} {host : List HostMove}
    (hhost : host.all (moveInRange s.params) = true) :
    ({ s with fault := fault, host := host, reply := .never } : State).Playing :=
  ⟨h.record, h.inv.halted h.busy h.bus hhost, h.busy, h.bus, h.rest, h.table⟩

theorem State.Playing.access {s t : State} (h : s.Playing) (hl : s.live) (ha : Accesses s t) : t.Playing where
  record := by rw [ha.params]; exact h.record
  inv := h.inv.transacts h.busy h.bus hl ha.toTransacts (by rw [ha.bufKept]; exact h.inv.bufWf)
    (by rw [ha.bufKept]; exact h.inv.bufWithin)
  busy := ha.busy.trans h.busy
  bus := ha.bus.trans h.bus
  rest := by rw [ha.cfsm]; exact h.rest
  table := by rw [ha.params, ha.seqTbl]; exact h.table

/-- A playback under way is one of the table it names. -/
theorem State.Inv.playing {s : State} (h : s.Inv) (hwf : recordWf s.params = true) (hbus : s.bus = none)
    (hseq : s.seqState ≠ .idle) : s.Playing where
  record := hwf
  inv := h
  busy := by
    by_contra hb
    exact hseq (h.restSeq (Bool.eq_false_of_not_eq_true hb))
  bus := hbus
  rest := h.seqCfsm hseq
  table := (h.seqRuns hseq).imp fun _ ht => ht.1

/-- The sequencer's registers move inside the table (R18, R88). -/
theorem State.Playing.moves {s : State} (h : s.Playing) {q : SeqState} {pc : BitVec 16} {log : List Event}
    (hin : q ≠ .idle → ({ s with seqState := q, seqPc := pc, log := log } : State).seqInTable) :
    ({ s with seqState := q, seqPc := pc, log := log } : State).Playing :=
  ⟨h.record, { h.inv with
    restSeq := fun hi => absurd (show s.busy = false from hi) (by simp [h.busy])
    busPoll := .inl h.bus
    seqRuns := hin
    seqCfsm := fun _ => h.rest }, h.busy, h.bus, h.rest, h.table⟩

/-- The next entry of a table: no index of 16 bits overflows (R18, R86). -/
theorem seqPc_succ {v : Variant} {t : RegisterTable} (ht : tableWf v t = true) {pc : BitVec 16}
    (h : pc.toNat < writeCount t) : (pc + 1).toNat = pc.toNat + 1 := by
  have := writeCount_le ht
  rw [BitVec.toNat_add, show (1 : BitVec 16).toNat = 1 from rfl]
  omega

/-- The end of a settle wait (R94). -/
theorem State.Playing.settleEnd {s : State} (h : s.Playing) : (settleEnd s).Playing := by
  unfold Machine.settleEnd
  split
  · rename_i hseq
    rcases inTurn_cases (fun h => { h with seqState := .run, seqPc := h.seqPc + 1 }) s with
      ⟨host, hrange, -, e⟩ | ⟨fault, host, hrange, -, -, e⟩ <;> rw [e]
    · obtain ⟨t, ht, -, hlt⟩ := h.inv.seqRuns (by simp [hseq])
      have hpc := seqPc_succ ((recordFacts h.record).tableOf ht) (hlt hseq)
      have hplay : ({ s with host := host } : State).Playing :=
        ⟨h.record, { h.inv with hostRange := hrange h.inv.hostRange }, h.busy, h.bus, h.rest, h.table⟩
      refine hplay.moves fun _ => ⟨t, ht, ?_, nofun⟩
      rw [hpc]
      exact hlt hseq
    · exact h.halted (hrange h.inv.hostRange)
  · exact h

/-- A write entry, from SEQ_RUN at an entry of the table (R88, R90, R92). -/
theorem State.Playing.seqWrite {s : State} (h : s.Playing) (hl : s.live) (hseq : s.seqState = .run) {t : RegisterTable}
    (ht : tableOf s.params s.seqTbl = some t) (hlt : s.seqPc.toNat < writeCount t) (a : CbAddr) (v : Byte) :
    (seqWrite a v s).Playing := by
  have ha := cbWrite_accesses a v s
  have hw := h.access hl ha
  rw [← ha.params, ← ha.seqTbl] at ht
  rw [← ha.seqPc] at hlt
  rw [← ha.seqState] at hseq
  unfold Machine.seqWrite
  generalize cbWrite a v s = w at hw ht hlt hseq
  have hpc := seqPc_succ ((recordFacts hw.record).tableOf ht) hlt
  unfold afterWrite
  refine onReply_kept (Mid := State.Playing) id hw (fun _ => ?_) fun _ _ => ?_
  · exact hw.moves fun hn => absurd rfl hn
  · split
    · exact hw.moves fun _ => ⟨t, ht, hlt.le, fun _ => hlt⟩
    · refine hw.moves fun _ => ⟨t, ht, ?_, fun hs => ?_⟩
      · rw [hpc]; exact hlt
      · rw [show w.seqState = .settle from hs] at hseq; cases hseq

/-- The end of a table, by END8 or by its length (R91, R93). -/
theorem State.Playing.playEnd {s : State} (h : s.Playing) (hl : s.live) : (playEnd s).Playing := by
  simp only [Machine.playEnd]
  rcases inTurn_cases (fun s => { s with seqState := .idle }.returns (.ok 0)) s with
    ⟨host, hrange, hf, e⟩ | ⟨fault, host, hrange, -, -, e⟩ <;> rw [e]
  · exact ⟨h.record, { h.inv with
      restSeq := fun _ => rfl
      csHigh := .inl (h.inv.csN_of_ne_never (hl hf))
      neverBusy := fun _ => h.busy
      faultBusy := fun hne => absurd hf hne
      busPoll := .inl h.bus
      seqRuns := fun hs => absurd rfl hs
      seqCfsm := fun _ => h.rest
      hostRange := hrange h.inv.hostRange }, h.busy, h.bus, h.rest, h.table⟩
  · exact h.halted (hrange h.inv.hostRange)

/-- The command to which playback returns keeps the invariant: CONFIGURE's mode is one of P_MODES, for it has a table. -/
theorem State.Playing.returned {s : State} (h : s.Playing) (hseq : s.seqState = .idle) : (playReturned s).Inv := by
  have hs : s.Resting := ⟨⟨h.record, h.inv, h.busy, h.bus, hseq⟩, h.rest⟩
  unfold playReturned
  split
  · rename_i m hm
    obtain ⟨t, ht⟩ := h.table
    have hmem : m ∈ modes s.params := by
      rw [hm] at ht
      obtain ⟨a, b, hab, -⟩ := List.lookup_eq_some_iff.mp ht
      simp [modes, hab]
    refine resting_kept.configureEnd (fun hs => ?_) (fun hs => ?_) hs
    · exact ⟨⟨h.record, { h.inv with modeKnown := .inl rfl, cfgMode := nofun }, h.busy, h.bus, hseq⟩, h.rest⟩
    · exact ⟨⟨h.record, { h.inv with modeKnown := .inr hmem, cfgMode := fun _ => hmem }, h.busy, h.bus, hseq⟩, h.rest⟩
  · exact resting_kept.probeIdentity
      (fun b h => ⟨⟨h.1.record, { h.1.inv with }, h.1.busy, h.1.bus, h.1.seqIdle⟩, h.2⟩) hs

theorem State.Playing.afterEntry {s : State} (h : s.Playing) : (afterEntry s).Inv := by
  unfold Machine.afterEntry
  split
  · rename_i hseq
    rw [Bool.and_eq_true, beq_iff_eq] at hseq
    exact h.returned hseq.2
  · exact h.inv

/-! ## Every step -/

theorem decodeHost_isHost (w : Nat) (bytes : List Byte) : isHostCommand (decodeHost w bytes) = true := by
  cases bytes with
  | nil => rfl
  | cons op operands =>
    unfold decodeHost
    dsimp only
    split <;> first | rfl | (split <;> rfl)

/-- The wait of a stuck command keeps the invariant: the host may break in (R112, R127). -/
theorem hostTurn_inv {s : State} (h : s.Inv) (hs : stuck s = true) : s.hostTurn.Inv := by
  have hbus : s.bus = none := h.busPoll.resolve_right fun hn => by
    rw [stuck_of_bus hn.1 hn.2.2.2.2] at hs; cases hs
  have hb : s.busy = true := by
    rw [stuck, Bool.and_eq_true] at hs; exact hs.1
  obtain ⟨-, -, hrange⟩ := hostTurn_frame s
  rcases hostTurn_cases s with e | ⟨bytes, rest, -, -, e⟩ | ⟨bytes, k, rest, -, -, e⟩ <;> rw [e] at hrange ⊢
  · exact h
  · exact h.halted hb hbus (hrange h.hostRange)
  · exact { h with hostRange := hrange h.hostRange }

theorem hostStore_inv {b : HostBuffer} {i : Nat} {v : Byte} {s t : State} (h : s.Inv) (hstore : hostStore b i v s = .next t) :
    t.Inv := by
  obtain ⟨hi, ⟨rfl, rfl⟩ | ⟨rfl, rfl⟩⟩ := hostStore_frame hstore
  · exact { h with
      bufWf := Memory.write_wf _ _ _ h.bufWf
      bufWithin := Memory.write_within _ _ _ _ h.bufWithin hi }
  · exact { h with
      obufWf := Memory.write_wf _ _ _ h.obufWf
      obufWithin := Memory.write_within _ _ _ _ h.obufWithin hi }

/-- The host's next move is taken from its list. -/
theorem State.Inv.nextMove {s : State} (h : s.Inv) {m : HostMove} {rest : List HostMove} (hh : s.host = m :: rest) :
    ({ s with host := rest } : State).Inv :=
  { h with hostRange := (Grows.nextMove hh).host h.hostRange }

/-- The frame in the transport unit is the next poll of a capture. -/
theorem State.Inv.pollWaits {s : State} (h : s.Inv) {f : Encoded} (hbus : s.bus = some f) :
    f = pollFrame s.params ∧ s.busy = true ∧ s.cfsm = .capturing ∧ s.seqState = .idle ∧ s.reply ≠ .never := by
  obtain ⟨hp, hrest⟩ := h.busPoll.resolve_left (by simp [hbus])
  rw [hbus] at hp
  injection hp with hp
  exact ⟨hp, hrest⟩

/-- With nothing in the transport unit every source of a step keeps the invariant. -/
theorem Steps.inv {s t : State} (hwf : recordWf s.params = true) (h : s.Inv) (hnone : s.bus = none) (hs : Steps s t) :
    t.Inv := by
  cases hs with
  | waits hs => exact hostTurn_inv h hs
  | frame _ hbus => rw [hnone] at hbus; cases hbus
  | @entry tbl e hs hbus hseq ht he =>
    have hrun : s.seqState ≠ .idle := by simp [hseq]
    have hplay := h.playing hwf hbus hrun
    have hl : s.live := fun _ hn => by rw [stuck_of_never hplay.busy hn] at hs; cases hs
    obtain ⟨t', ht', hle, -⟩ := h.seqRuns hrun
    rw [ht] at ht'
    injection ht' with ht'
    subst ht'
    rcases tableEntry_of_le ((recordFacts hwf).tableOf ht) hle with ⟨hlt, e', he', -⟩ | ⟨-, he'⟩ <;> rw [he] at he' <;>
      injection he' with he' <;> rw [he']
    · exact (hplay.seqWrite hl hseq ht hlt _ _).afterEntry
    · exact (hplay.playEnd hl).afterEntry
  | settled _ hbus hseq => exact (h.playing hwf hbus (by simp [hseq])).settleEnd.inv
  | idle => exact h
  | @command _ _ rest _ hb hbus _ hh hexec =>
    exact exec_host_inv (s := { s with host := rest }) (decodeHost_isHost _ _) hwf (h.nextMove hh) hb hbus hexec
  | store _ _ _ hh hstore => exact hostStore_inv (h.nextMove hh) hstore

/-- Settles O8: the next poll of a capture by `CaptureKept`, and every other source of a step by `Steps.inv`. -/
theorem invariantKept : Obligations.InvariantKept := by
  intro s t hwf h hstep
  obtain ⟨-, hf, hs⟩ := step_next hstep
  cases hbus : s.bus with
  | none => exact hs.inv hwf h hbus
  | some f =>
    obtain ⟨rfl, hb, hc, hseq, hr⟩ := h.pollWaits hbus
    rw [step_pollFrame hwf hf hbus hb hc hr] at hstep
    injection hstep with hstep
    rw [← hstep]
    exact running_captureKept.poll (s := { s with bus := none }) hc (fun _ => hr)
      ⟨hwf, { h with busPoll := .inl rfl }, hb, rfl, hseq⟩

/-! ## Progress (R15, R51, R86, R138) -/

/-- A host command in a block that is not faulted and of a well-formed record has a next state. -/
theorem exec_host_next {i : Instr} (hi : isHostCommand i = true) {s : State} (hwf : recordWf s.params = true)
    (hf : s.fault = []) : ∃ t, exec i s = .next t := by
  have hcourse : ∀ {c : State → Host.Outcome State Fault Refusal},
      (∀ b : State, b.params = s.params → ∃ t, c b = .next t) → ∃ t, accept c s = .next t := by
    intro c hc
    unfold accept
    rw [if_pos hf]
    split
    · exact ⟨_, rfl⟩
    · dsimp only
      split
      · exact hc _ (hostTurn_grows s.begin).params
      · exact ⟨_, rfl⟩
  cases i with
  | selftest | probe | configure m | state | cread a | cwrite a v | dread a | dwrite a v | dburst n | hostIllegal b =>
    simp only [exec, execSelftest, execProbe, execConfigure, execState, execCread, execCwrite, execDread, execDwrite,
      execDburst, execHostIllegal]
    refine hcourse ?_
    exact fun _ _ => ⟨_, rfl⟩
  | capture =>
    simp only [exec, execCapture]
    refine hcourse fun b hb => ?_
    rw [hb, (recordFacts hwf).rawInRange, if_neg Bool.false_ne_true]
    exact ⟨_, rfl⟩
  | reconstruct =>
    simp only [exec, execReconstruct]
    refine hcourse fun b hb => ?_
    rw [hb]
    split
    · exact ⟨_, rfl⟩
    · rw [if_pos ((recordFacts hwf).reconstructInRange (by omega))]
      exact ⟨_, rfl⟩
  | wr8 | end8 | wr16 | dbRead | dbWrite | dbBurst | cbWrite | cbRead => cases hi

theorem hostStore_next {b : HostBuffer} {i : Nat} {v : Byte} {s : State} (hi : i < bufferSize s.params b) :
    ∃ t, hostStore b i v s = .next t := by
  unfold hostStore
  rw [if_neg (by omega)]
  cases b <;> exact ⟨_, rfl⟩

/-- The host's next move has a next state: a command by `exec_host_next`, a store because it lies in its buffer. -/
theorem fetchHost_next {s : State} (hwf : recordWf s.params = true) (hf : s.fault = [])
    (hrange : s.host.all (moveInRange s.params) = true) : ∃ t, runFetched (fetchHost s) = .next t := by
  unfold fetchHost
  split
  · exact ⟨_, rfl⟩
  · rename_i bytes early rest hh
    obtain ⟨t, ht⟩ := exec_host_next (decodeHost_isHost s.params.addrW bytes) (s := { s with host := rest }) hwf hf
    exact ⟨t, by simp only [runFetched, ht, resume]⟩
  · rename_i b i v rest hh
    rw [hh, List.all_cons, Bool.and_eq_true] at hrange
    obtain ⟨t, ht⟩ := hostStore_next (b := b) (i := i) (v := v) (s := { s with host := rest })
      (by simpa [moveInRange] using hrange.1)
    exact ⟨t, by simp only [ht, runFetched]⟩

/-- Settles O9: the invariant gives each source of a step what its fetch needs: a poll in the transport unit, an entry
within the table, a host move in range. -/
theorem unfaultedBlockAlwaysSteps : Obligations.UnfaultedBlockAlwaysSteps := by
  intro s hwf h hf
  cases hs : stuck s with
  | true => exact ⟨_, step_stuck hwf hf hs⟩
  | false =>
    cases hbus : s.bus with
    | some f =>
      obtain ⟨rfl, hb, hc, -, hr⟩ := h.pollWaits hbus
      exact ⟨_, step_pollFrame hwf hf hbus hb hc hr⟩
    | none =>
      cases hseq : s.seqState with
      | idle =>
        rw [step_host hwf hf hs hbus hseq]
        exact fetchHost_next hwf hf h.hostRange
      | settle => exact ⟨_, step_settle hwf hf hs hbus hseq⟩
      | run =>
        obtain ⟨t, ht, hle, -⟩ := h.seqRuns (by simp [hseq])
        rw [step_entry hwf hf hs hbus hseq, runFetched_fetchEntry ht]
        rcases tableEntry_of_le ((recordFacts hwf).tableOf ht) hle with ⟨-, e, he, -⟩ | ⟨-, he⟩ <;> rw [he] <;>
          exact ⟨_, rfl⟩

end Sys2Proof.Machine
end

section
/-! SUPPORT. The statements about the bus transactions and the raw-access commands (40_transport.md): the answer decides,
and each of the three answers leaves the state that its lemma in Laws/Ops.lean writes out. -/

namespace Sys2Proof.Machine

/-! ## The visible events -/

@[simp] theorem visible_nil : visible [] = [] := rfl

@[simp] theorem visible_csSettle (log : List Event) : visible (.wait .csSettle :: log) = visible log := rfl

@[simp] theorem visible_cons {e : Event} (h : e ≠ .wait .csSettle) (log : List Event) :
    visible (e :: log) = e :: visible log := by
  simp [visible, h]

/-! ## The transactions as instructions (R76 to R80) -/

/-- A failed burst: its debris at its destination, and the progress it made (R80). -/
theorem dbBurst_at_err_buf {base s : State} {k : Nat} (h : At base k s) (n : Count) (err : base.saysErr k = true) :
    dbBurst n .buf s =
      { s with log := s.log ++ [.wait .csSettle] ++ [.wait .csSettle] ++ [.err (.dbBurst n)],
               answers := base.answers.drop (k + 1), draws := base.draws + (k + 1), reply := .err, csN := true,
               drainIdx := s.burstProgress n, buf := s.buf.writeBytes 0 (base.answerBytes k n.toNat) } := by
  rw [dbBurst_err n .buf s h.clear (by rw [h.saysErr]; exact err)]
  simp only [State.select, State.deselect, State.drawn, State.emit, State.returns, State.deliver, State.burstDebris,
    h.answers, h.draws, h.answerBytes, drop_tail]
  rfl

theorem dbBurst_at_err_out {base s : State} {k : Nat} (h : At base k s) (n : Count) (err : base.saysErr k = true) :
    dbBurst n .out s =
      { s with log := s.log ++ [.wait .csSettle] ++ [.out (s.burstDebris n.toNat .out)] ++ [.wait .csSettle]
                 ++ [.err (.dbBurst n)],
               answers := base.answers.drop (k + 1), draws := base.draws + (k + 1), reply := .err, csN := true,
               drainIdx := s.burstProgress n, out := s.out ++ s.burstDebris n.toNat .out } := by
  rw [dbBurst_err n .out s h.clear (by rw [h.saysErr]; exact err)]
  simp only [State.select, State.deselect, State.drawn, State.emit, State.returns, State.deliver, State.outWrite,
    h.answers, h.draws, drop_tail]
  rfl

/-- Settles O15. -/
theorem cbWriteTransaction : Obligations.CbWriteTransaction := by
  intro a v s hc
  refine ⟨cbWrite a v s, rfl, ?_⟩
  rcases says_cases s 0 with ⟨ho, he, hn⟩ | ⟨ho, he, hn⟩ | ⟨ho, he, hn⟩
  · rw [cbWrite_at_ok (.self hc) a v ho, ho, he, hn]
    exact ⟨by simp, fun _ => ⟨rfl, by simp [State.events]⟩, nofun, nofun⟩
  · rw [cbWrite_at_err (.self hc) a v he, ho, he, hn]
    exact ⟨by simp, nofun, fun _ => ⟨rfl, by simp [State.events]⟩, nofun⟩
  · rw [cbWrite_at_nothing (.self hc) a v hn, ho, he, hn]
    exact ⟨by simp, nofun, nofun, fun _ => ⟨rfl, rfl⟩⟩

/-- Settles O16. -/
theorem cbReadTransaction : Obligations.CbReadTransaction := by
  intro a s hc
  refine ⟨cbRead a s, rfl, ?_⟩
  rcases says_cases s 0 with ⟨ho, he, hn⟩ | ⟨ho, he, hn⟩ | ⟨ho, he, hn⟩
  · rw [cbRead_at_ok (.self hc) a ho, ho, he, hn]
    exact ⟨by simp, fun _ => ⟨rfl, by simp [State.events]⟩, nofun, nofun⟩
  · rw [cbRead_at_err (.self hc) a he, ho, he, hn]
    exact ⟨by simp, nofun, fun _ => ⟨rfl, by simp [State.events]⟩, nofun⟩
  · rw [cbRead_at_nothing (.self hc) a hn, ho, he, hn]
    exact ⟨by simp, nofun, nofun, fun _ => ⟨rfl, rfl⟩⟩

/-- Settles O17: chip select falls before the answer, and rises where there is one. -/
theorem dbWriteTransaction : Obligations.DbWriteTransaction := by
  intro a v s hc
  refine ⟨dbWrite a v s, rfl, ?_⟩
  rcases says_cases s 0 with ⟨ho, he, hn⟩ | ⟨ho, he, hn⟩ | ⟨ho, he, hn⟩
  · rw [dbWrite_at_ok (.self hc) a v ho, ho, he, hn]
    exact ⟨by simp, fun _ => ⟨rfl, rfl, by simp [State.events]⟩, nofun, nofun⟩
  · rw [dbWrite_at_err (.self hc) a v he, ho, he, hn]
    exact ⟨by simp, nofun, fun _ => ⟨rfl, rfl, by simp [State.events]⟩, nofun⟩
  · rw [dbWrite_at_nothing (.self hc) a v hn, ho, he, hn]
    exact ⟨by simp, nofun, nofun, fun _ => ⟨rfl, rfl, by simp [State.events]⟩⟩

/-- Settles O18: as for DB_WRITE, with the byte read as the reply. -/
theorem dbReadTransaction : Obligations.DbReadTransaction := by
  intro a s hc
  refine ⟨dbRead a s, rfl, ?_⟩
  rcases says_cases s 0 with ⟨ho, he, hn⟩ | ⟨ho, he, hn⟩ | ⟨ho, he, hn⟩
  · rw [dbRead_at_ok (.self hc) a ho, ho, he, hn]
    exact ⟨by simp, fun _ => ⟨rfl, rfl, by simp [State.events]⟩, nofun, nofun⟩
  · rw [dbRead_at_err (.self hc) a he, ho, he, hn]
    exact ⟨by simp, nofun, fun _ => ⟨rfl, rfl, by simp [State.events]⟩, nofun⟩
  · rw [dbRead_at_nothing (.self hc) a hn, ho, he, hn]
    exact ⟨by simp, nofun, nofun, fun _ => ⟨rfl, rfl, by simp [State.events]⟩⟩

/-- The bytes of a burst in BUF: in order from index 0, and none from index `n` on (R47). -/
theorem read_burst {m : Memory} (hwf : m.wf = true) (s : State) (k n x : Nat) :
    (m.writeBytes 0 (s.answerBytes k n)).read x = if x < n then s.answerByte k x else m.read x := by
  split
  · have := Memory.read_writeBytes (s.answerBytes k n) m 0 x (by simpa) hwf
    rw [Nat.zero_add] at this
    rw [this, answerBytes_getElem]
    assumption
  · exact Memory.read_writeBytes_other _ _ _ _ (.inr (by simp; omega))

/-- Settles O19: a burst that fits writes the bytes 0 to n - 1 of BUF, whatever they are. -/
theorem dbBurstIntoBuf : Obligations.DbBurstIntoBuf := by
  intro n s hc hwf
  refine ⟨fun hcap => ?_, fun hfit => ⟨dbBurst n .buf s, ?_, ?_⟩⟩
  · exact if_pos ⟨rfl, hcap⟩
  · exact if_neg fun h => absurd h.2 (by omega)
  rcases says_cases s 0 with ⟨ho, he, hn⟩ | ⟨ho, he, hn⟩ | ⟨ho, he, hn⟩
  · rw [dbBurst_at_ok_buf (.self hc) n ho, ho, he, hn]
    refine ⟨by simp, fun k hk => ?_, fun _ => ⟨rfl, rfl, rfl, fun k hk => ?_, by simp [State.events]⟩, nofun, nofun⟩
    · exact (read_burst hwf s 0 n.toNat k).trans (if_neg (by omega))
    · exact (read_burst hwf s 0 n.toNat k).trans (if_pos hk)
  · rw [dbBurst_at_err_buf (.self hc) n he, ho, he, hn]
    refine ⟨by simp, fun k hk => ?_, nofun, fun _ => ⟨rfl, rfl, burstProgress_le s n, by simp [State.events]⟩, nofun⟩
    exact (read_burst hwf s 0 n.toNat k).trans (if_neg (by omega))
  · rw [dbBurst_at_nothing (.self hc) n .buf hn, ho, he, hn]
    exact ⟨by simp, fun _ _ => rfl, nofun, nofun, fun _ => ⟨rfl, rfl, rfl, rfl, by simp [State.events]⟩⟩

/-- Settles O20: what the burst brings is appended to OUT, and nothing else holds it. -/
theorem dbBurstOntoOut : Obligations.DbBurstOntoOut := by
  intro n s hc
  refine ⟨dbBurst n .out s, ?_, ?_⟩
  · simp [exec, execDbBurst]
  rcases says_cases s 0 with ⟨ho, he, hn⟩ | ⟨ho, he, hn⟩ | ⟨ho, he, hn⟩
  · rw [dbBurst_at_ok_out (.self hc) n ho, ho, he, hn]
    exact ⟨by simp, fun _ => ⟨rfl, rfl, rfl, rfl, by simp [State.events]⟩, nofun, nofun⟩
  · rw [dbBurst_at_err_out (.self hc) n he, ho, he, hn]
    refine ⟨by simp, nofun, fun _ => ⟨rfl, rfl, burstProgress_le s n, s.burstDebris n.toNat .out, ?_, rfl, ?_⟩, nofun⟩
    · exact List.length_take_le _ _
    · simp [State.events]
  · rw [dbBurst_at_nothing (.self hc) n .out hn, ho, he, hn]
    exact ⟨by simp, nofun, nofun, fun _ => ⟨rfl, rfl, rfl, rfl, by simp [State.events]⟩⟩

/-! ## The raw-access commands (R81 to R85) -/

/-- The response of a command that acts (R130). -/
theorem At.finish {base s : State} {k : Nat} (h : At base k s) (len : Count) (data : BitVec 32) :
    finish len data s = s.setResponse okCode len data := respond_clear s okCode len data h.clear

/-- The status of a command that acts (R136). -/
theorem At.raise {base s : State} {k : Nat} (h : At base k s) (code : Byte) (data : BitVec 32) :
    raise code data s = s.setResponse code 0 data := respond_clear s code 0 data h.clear

theorem idle_of_accepting {s : State} (h : s.accepting = true) : s.busy = false := ((accepting_iff s).mp h).2.1

section
variable {base s : State} {k : Nat} (h : At base k s) (len : Count) (data : Byte → BitVec 32)
include h

/-- A raw command whose transaction answered `Ok` (R81 to R85). -/
theorem rawCourse_ok {v : Byte} (hr : s.reply = .ok v) :
    onReply s (raise busError 0) (fun v => finish len (data v)) = s.setResponse okCode len (data v) := by
  rw [onReply_ok _ _ _ _ hr, h.finish]

/-- A raw command whose transaction answered `Err`. -/
theorem rawCourse_err (hr : s.reply = .err) :
    onReply s (raise busError 0) (fun v => finish len (data v)) = s.setResponse busError 0 0 := by
  rw [onReply_err _ _ _ hr, h.raise]

end

/-- Settles O21. -/
theorem creadResult : Obligations.CreadResult := by
  intro a s hacc
  have h := At.start hacc
  have hidle := idle_of_accepting hacc
  refine ⟨_, exec_cread hacc a, ?_⟩
  rcases says_cases s 0 with ⟨ho, he, hn⟩ | ⟨ho, he, hn⟩ | ⟨ho, he, hn⟩
  · rw [cbRead_at_ok h a ho, ho, he, hn, rawCourse_ok (base := s) (k := 1) (by exact ⟨rfl, rfl, h.fault, h.quiet⟩) _ _ rfl]
    exact ⟨fun _ => ⟨by simp [State.setResponse, byteData, hidle], by simp [State.events]⟩, nofun, nofun⟩
  · rw [cbRead_at_err h a he, ho, he, hn, rawCourse_err (base := s) (k := 1) (by exact ⟨rfl, rfl, h.fault, h.quiet⟩) _ _ rfl]
    exact ⟨nofun, fun _ => ⟨by simp [State.setResponse, hidle], by simp [State.events]⟩, nofun⟩
  · rw [cbRead_at_nothing h a hn, ho, he, hn, onReply_never _ _ _ rfl]
    exact ⟨nofun, nofun, fun _ => ⟨rfl, rfl, rfl⟩⟩

/-- Settles O22. -/
theorem cwriteResult : Obligations.CwriteResult := by
  intro a v s hacc
  have h := At.start hacc
  have hidle := idle_of_accepting hacc
  refine ⟨_, exec_cwrite hacc a v, ?_⟩
  rcases says_cases s 0 with ⟨ho, he, hn⟩ | ⟨ho, he, hn⟩ | ⟨ho, he, hn⟩
  · rw [cbWrite_at_ok h a v ho, ho, he, hn,
      rawCourse_ok (base := s) (k := 1) (by exact ⟨rfl, rfl, h.fault, h.quiet⟩) 0 (fun _ => 0) rfl]
    exact ⟨fun _ => ⟨by simp [State.setResponse, hidle], by simp [State.events]⟩, nofun, nofun⟩
  · rw [cbWrite_at_err h a v he, ho, he, hn,
      rawCourse_err (base := s) (k := 1) (by exact ⟨rfl, rfl, h.fault, h.quiet⟩) 0 (fun _ => 0) rfl]
    exact ⟨nofun, fun _ => ⟨by simp [State.setResponse, hidle], by simp [State.events]⟩, nofun⟩
  · rw [cbWrite_at_nothing h a v hn, ho, he, hn, onReply_never _ _ _ rfl]
    exact ⟨nofun, nofun, fun _ => ⟨rfl, rfl, rfl⟩⟩

theorem badDbAddr_iff (a : Byte) : badDbAddr a = true ↔ 0x7F < a.toNat := by simp [badDbAddr]

/-- Settles O23. -/
theorem dreadResult : Obligations.DreadResult := by
  intro a s hacc
  have h := At.start hacc
  have hidle := idle_of_accepting hacc
  refine ⟨_, exec_dread hacc a, ?_⟩
  by_cases hbad : 0x7F < a.toNat
  · rw [if_pos ((badDbAddr_iff a).mpr hbad), h.raise]
    exact ⟨fun _ => by simp [State.setResponse, State.begin, hidle], fun hle => absurd hbad (by omega),
      fun hle => absurd hbad (by omega), fun hle => absurd hbad (by omega)⟩
  rw [if_neg (mt (badDbAddr_iff a).mp hbad)]
  refine ⟨fun hlt => absurd hlt hbad, ?_⟩
  rcases says_cases s 0 with ⟨ho, he, hn⟩ | ⟨ho, he, hn⟩ | ⟨ho, he, hn⟩
  · rw [dbRead_at_ok h _ ho, ho, he, hn, rawCourse_ok (base := s) (k := 1) (by exact ⟨rfl, rfl, h.fault, h.quiet⟩) _ _ rfl]
    exact ⟨fun _ _ => ⟨by simp [State.setResponse, byteData, hidle], by simp [State.events, dbAddr]⟩, nofun, nofun⟩
  · rw [dbRead_at_err h _ he, ho, he, hn, rawCourse_err (base := s) (k := 1) (by exact ⟨rfl, rfl, h.fault, h.quiet⟩) _ _ rfl]
    exact ⟨nofun, fun _ _ => ⟨by simp [State.setResponse, hidle], by simp [State.events, dbAddr]⟩, nofun⟩
  · rw [dbRead_at_nothing h _ hn, ho, he, hn, onReply_never _ _ _ rfl]
    exact ⟨nofun, nofun, fun _ _ => ⟨rfl, rfl, rfl, rfl⟩⟩

/-- Settles O24. -/
theorem dwriteResult : Obligations.DwriteResult := by
  intro a v s hacc
  have h := At.start hacc
  have hidle := idle_of_accepting hacc
  refine ⟨_, exec_dwrite hacc a v, ?_⟩
  by_cases hbad : 0x7F < a.toNat
  · rw [if_pos ((badDbAddr_iff a).mpr hbad), h.raise]
    exact ⟨fun _ => by simp [State.setResponse, State.begin, hidle], fun hle => absurd hbad (by omega),
      fun hle => absurd hbad (by omega), fun hle => absurd hbad (by omega)⟩
  rw [if_neg (mt (badDbAddr_iff a).mp hbad)]
  refine ⟨fun hlt => absurd hlt hbad, ?_⟩
  rcases says_cases s 0 with ⟨ho, he, hn⟩ | ⟨ho, he, hn⟩ | ⟨ho, he, hn⟩
  · rw [dbWrite_at_ok h _ v ho, ho, he, hn,
      rawCourse_ok (base := s) (k := 1) (by exact ⟨rfl, rfl, h.fault, h.quiet⟩) 0 (fun _ => 0) rfl]
    exact ⟨fun _ _ => ⟨by simp [State.setResponse, hidle], by simp [State.events, dbAddr]⟩, nofun, nofun⟩
  · rw [dbWrite_at_err h _ v he, ho, he, hn,
      rawCourse_err (base := s) (k := 1) (by exact ⟨rfl, rfl, h.fault, h.quiet⟩) 0 (fun _ => 0) rfl]
    exact ⟨nofun, fun _ _ => ⟨by simp [State.setResponse, hidle], by simp [State.events, dbAddr]⟩, nofun⟩
  · rw [dbWrite_at_nothing h _ v hn, ho, he, hn, onReply_never _ _ _ rfl]
    exact ⟨nofun, nofun, fun _ _ => ⟨rfl, rfl, rfl, rfl⟩⟩

theorem badBurst_iff (p : Params) (n : BitVec 24) : badBurst p n = true ↔ 2 ^ 23 ≤ n.toNat ∨ p.cap < n.toNat := by
  simp [badBurst]

/-- Settles O25: a count in range is its 23 bits, and the burst is that of DB_BURST into BUF. -/
theorem dburstResult : Obligations.DburstResult := by
  intro n s hacc hwf
  have h := At.start hacc
  have hidle := idle_of_accepting hacc
  refine ⟨_, exec_dburst hacc n, ?_⟩
  by_cases hbad : 2 ^ 23 ≤ n.toNat ∨ s.params.cap < n.toNat
  · rw [if_pos ((badBurst_iff _ n).mpr hbad), h.raise]
    exact ⟨fun _ => by simp [State.setResponse, State.begin, hidle], fun h1 h2 => absurd hbad (by omega)⟩
  rw [if_neg (mt (badBurst_iff _ n).mp hbad)]
  refine ⟨fun hb => absurd hb hbad, fun hlt hcap => ?_⟩
  have hn23 : (n.setWidth 23).toNat = n.toNat := by rw [BitVec.toNat_setWidth, Nat.mod_eq_of_lt hlt]
  rcases says_cases s 0 with ⟨ho, he, hn⟩ | ⟨ho, he, hn⟩ | ⟨ho, he, hn⟩
  · rw [dbBurst_at_ok_buf h _ ho, ho, he, hn, hn23,
      rawCourse_ok (base := s) (k := 1) (by exact ⟨rfl, rfl, h.fault, h.quiet⟩) (n.setWidth 23) (fun _ => 0) rfl]
    refine ⟨fun x hx => ?_, fun _ => ⟨by simp [State.setResponse, hidle], fun x hx => ?_, by simp [State.events]⟩, nofun,
      nofun⟩
    · exact (read_burst hwf s 0 n.toNat x).trans (if_neg (by omega))
    · exact (read_burst hwf s 0 n.toNat x).trans (if_pos hx)
  · rw [dbBurst_at_err_buf h _ he, ho, he, hn, hn23,
      rawCourse_err (base := s) (k := 1) (by exact ⟨rfl, rfl, h.fault, h.quiet⟩) (n.setWidth 23) (fun _ => 0) rfl]
    refine ⟨fun x hx => ?_, nofun, fun _ => ⟨by simp [State.setResponse, hidle], by simp [State.events]⟩, nofun⟩
    exact (read_burst hwf s 0 n.toNat x).trans (if_neg (by omega))
  · rw [dbBurst_at_nothing h _ .buf hn, ho, he, hn, onReply_never _ _ _ rfl]
    exact ⟨fun _ _ => rfl, nofun, nofun, fun _ => ⟨by simp [State.begin], by simp [State.events]⟩⟩

end Sys2Proof.Machine
end


section
/-! SUPPORT. The statements about SELFTEST (43_selftest.md), RECONSTRUCT (44_reconstruct.md) and STATE
(45_host_interface.md). -/

namespace Sys2Proof.Machine

/-! ## SELFTEST (R114) -/

/-- The comparison of a SELFTEST that acts. -/
theorem At.selftestCompare {base s : State} {k : Nat} (h : At base k s) (v : Byte) :
    selftestCompare v s = { s with
      busy := false, selftestOk := decide (v = s.params.scratchVal),
      status := if v = s.params.scratchVal then okCode else probeFail, resultLen := 0, resultData := byteData v } := by
  unfold Machine.selftestCompare
  split
  · rename_i hv
    rw [At.finish (base := base) (k := k) (by exact ⟨h.answers, h.draws, h.fault, h.quiet⟩)]
    simp [State.setResponse, hv]
  · rename_i hv
    rw [At.raise (base := base) (k := k) (by exact ⟨h.answers, h.draws, h.fault, h.quiet⟩)]
    simp [State.setResponse, hv]

/-- Settles O27: the write's answer, then the read's. -/
theorem selftestResult : Obligations.SelftestResult := by
  intro s hacc
  have h := At.start hacc
  have hidle := idle_of_accepting hacc
  refine ⟨_, exec_selftest hacc, ?_⟩
  rw [selftest]
  rcases says_cases s 0 with ⟨ho, he, hn⟩ | ⟨ho, he, hn⟩ | ⟨ho, he, hn⟩
  · rw [dbWrite_at_ok h _ _ ho, onReply_ok _ _ _ _ rfl, ho, he, hn]
    rcases says_cases s 1 with ⟨ho', he', hn'⟩ | ⟨ho', he', hn'⟩ | ⟨ho', he', hn'⟩
    · rw [dbRead_at_ok (base := s) (k := 1) (by exact ⟨rfl, rfl, h.fault, h.quiet⟩) _ ho', onReply_ok _ _ _ _ rfl,
        At.selftestCompare (base := s) (k := 2) (by exact ⟨rfl, rfl, h.fault, h.quiet⟩), ho', he', hn']
      refine ⟨nofun, nofun, fun _ _ => ⟨?_, ?_⟩, nofun, nofun⟩
      · by_cases hv : s.answerByte 1 0 = s.params.scratchVal <;> simp [byteData, hidle, hv]
      · simp [State.events, dbAddr]
    · rw [dbRead_at_err (base := s) (k := 1) (by exact ⟨rfl, rfl, h.fault, h.quiet⟩) _ he', onReply_err _ _ _ rfl,
        selftestBusError, At.raise (base := s) (k := 2) (by exact ⟨rfl, rfl, h.fault, h.quiet⟩), ho', he', hn']
      refine ⟨nofun, fun _ _ => ⟨?_, ?_⟩, nofun, nofun, nofun⟩
      · simp [State.setResponse, hidle]
      · simp [State.events, dbAddr]
    · rw [dbRead_at_nothing (base := s) (k := 1) (by exact ⟨rfl, rfl, h.fault, h.quiet⟩) _ hn', onReply_never _ _ _ rfl,
        ho', he', hn']
      refine ⟨nofun, nofun, nofun, nofun, fun _ _ => ⟨?_, ?_⟩⟩
      · simp [State.begin]
      · simp [State.events, dbAddr]
  · rw [dbWrite_at_err h _ _ he, onReply_err _ _ _ rfl, ho, he, hn, selftestBusError,
      At.raise (base := s) (k := 1) (by exact ⟨rfl, rfl, h.fault, h.quiet⟩)]
    exact ⟨fun _ => ⟨by simp [State.setResponse, hidle], by simp [State.events, dbAddr]⟩, nofun, nofun, nofun, nofun⟩
  · rw [dbWrite_at_nothing h _ _ hn, onReply_never _ _ _ rfl, ho, he, hn]
    exact ⟨nofun, nofun, nofun, fun _ => ⟨by simp [State.begin], by simp [State.events]⟩, nofun⟩

/-! ## RECONSTRUCT (R118 to R125) -/

/-- Reconstruction in a block that acts: pixel (r, c) is byte r*T + c of OBUF, and no other byte is written (R121). -/
theorem emitPixels_read {s : State} (hwf : s.obuf.wf = true) :
    (∀ r c, r < s.params.t → c < s.params.t → (emitPixels s).obuf.read (r * s.params.t + c) = crop s r c) ∧
    ∀ x, s.params.t * s.params.t ≤ x → (emitPixels s).obuf.read x = s.obuf.read x := by
  have hlen : (pixels s).length = s.params.t * s.params.t := by simp [pixels]
  refine ⟨fun r c hr hc => ?_, fun x hx => ?_⟩
  · have hk : r * s.params.t + c < (pixels s).length := by
      rw [hlen, Nat.mul_comm r]
      exact Nat.mul_add_lt_mul_of_lt_of_lt hr hc
    have hread := Memory.read_writeBytes (pixels s) s.obuf 0 (r * s.params.t + c) hk hwf
    rw [Nat.zero_add] at hread
    have hrow : (r * s.params.t + c) / s.params.t = r := by
      rw [Nat.mul_comm, Nat.mul_add_div (by omega), Nat.div_eq_of_lt hc, Nat.add_zero]
    have hcol : (r * s.params.t + c) % s.params.t = c := by
      rw [Nat.mul_comm, Nat.mul_add_mod, Nat.mod_eq_of_lt hc]
    rw [emitPixels, hread]
    simp only [pixels, List.getElem_map, List.getElem_range, hrow, hcol]
    simp only [crop, plane, mosaic, sourceIndex, Nat.add_assoc]
  · exact Memory.read_writeBytes_other _ _ _ _ (.inr (by rw [hlen]; omega))

/-- Settles O57: with a BUF that holds the mosaic the source indices are in range, and the response follows the pixels. -/
theorem reconstructPixels : Obligations.ReconstructPixels := by
  intro s hacc hwf hobuf
  have h := At.start hacc
  have hidle := idle_of_accepting hacc
  rw [exec_reconstruct hacc]
  refine ⟨fun hcap => ?_, fun hcap => ⟨(emitPixels s.begin).setResponse okCode (pixelCount s.params) 0, ?_, ?_⟩⟩
  · rw [if_pos hcap, h.raise]
    simp [State.setResponse, State.begin, hidle]
  · rw [if_neg (by omega), if_pos ((recordFacts hwf).reconstructInRange hcap), reconstruct_clear _ h.clear,
      At.finish (base := s) (k := 0) (by exact ⟨h.answers, h.draws, h.fault, h.quiet⟩)]
  · obtain ⟨hpixel, hrest⟩ := emitPixels_read (s := s.begin) hobuf
    exact ⟨by simp [State.setResponse, emitPixels, State.begin, pixelCount, hidle], hpixel, hrest⟩

/-! ## STATE (R27, R131) -/

/-- Bit `i` of a flag that stands at bit `n`. -/
theorem getLsbD_bit_shiftLeft (b : Bool) {n : Nat} (hn : n < 32) (i : Nat) :
    (bit b <<< n).getLsbD i = (b && decide (i = n)) := by
  rw [bit]
  split
  · rename_i hb
    by_cases hi : i = n
    · simp [hi, hn, hb]
    · simp only [BitVec.getLsbD_shiftLeft, hb, Bool.true_and, hi, decide_false]
      simp
      omega
  · rename_i hb
    simp [hb]

/-- The code of CFSM has 3 bits (R16). -/
theorem getLsbD_cfsmCode (c : Cfsm) {i : Nat} (hi : 3 ≤ i) : c.code.getLsbD i = false := by
  have hcode : c.code = (c.code.setWidth 3).setWidth 32 := by cases c <;> rfl
  rw [hcode, BitVec.getLsbD_setWidth, BitVec.getLsbD_of_ge _ _ hi, Bool.and_false]

/-- The code of SEQ_STATE has 2 bits (R17). -/
theorem getLsbD_seqCode (q : SeqState) {i : Nat} (hi : 2 ≤ i) : q.code.getLsbD i = false := by
  have hcode : q.code = (q.code.setWidth 2).setWidth 32 := by cases q <;> rfl
  rw [hcode, BitVec.getLsbD_setWidth, BitVec.getLsbD_of_ge _ _ hi, Bool.and_false]

/-- A bit of the STATE word is a bit of one of its fields (R27). -/
theorem getLsbD_word (s : State) {i : Nat} (hi : i < 32) : s.word.getLsbD i =
    (s.cfsm.code.getLsbD i || (!decide (i < 3) && s.seqState.code.getLsbD (i - 3)) || (s.selftestOk && decide (i = 5)) ||
      (s.probeOk && decide (i = 6)) || (s.cfgValid && decide (i = 7)) || (!decide (i < 8) && s.mode.getLsbD (i - 8)) ||
      (s.lenValid && decide (i = 16))) := by
  simp only [State.word, BitVec.getLsbD_or, BitVec.getLsbD_shiftLeft, getLsbD_bit_shiftLeft _ (show 5 < 32 by omega),
    getLsbD_bit_shiftLeft _ (show 6 < 32 by omega), getLsbD_bit_shiftLeft _ (show 7 < 32 by omega),
    getLsbD_bit_shiftLeft _ (show 16 < 32 by omega)]
  simp only [hi, decide_true, Bool.true_and, BitVec.getLsbD_setWidth, show i - 8 < 32 by omega]

/-- From bit 5 on stand the flags and MODE. -/
theorem getLsbD_word_flags (s : State) {i : Nat} (h5 : 5 ≤ i) (hi : i < 32) : s.word.getLsbD i =
    ((s.selftestOk && decide (i = 5)) || (s.probeOk && decide (i = 6)) || (s.cfgValid && decide (i = 7)) ||
      (!decide (i < 8) && s.mode.getLsbD (i - 8)) || (s.lenValid && decide (i = 16))) := by
  rw [getLsbD_word s hi, getLsbD_cfsmCode _ (by omega), getLsbD_seqCode _ (by omega), Bool.and_false, Bool.or_false,
    Bool.false_or]

/-- Bits 0 to 2 hold CFSM. -/
theorem word_cfsm (s : State) : s.word.extractLsb' 0 3 = s.cfsm.code.setWidth 3 := by
  ext i hi
  rw [BitVec.getElem_extractLsb', getLsbD_word s (by omega), BitVec.getElem_setWidth, Nat.zero_add]
  simp [hi, show i ≠ 5 by omega, show i ≠ 6 by omega, show i ≠ 7 by omega, show i < 8 by omega,
    show i ≠ 16 by omega]

/-- Bits 3 and 4 hold SEQ_STATE. -/
theorem word_seqState (s : State) : s.word.extractLsb' 3 2 = s.seqState.code.setWidth 2 := by
  ext i hi
  rw [BitVec.getElem_extractLsb', getLsbD_word s (by omega), BitVec.getElem_setWidth, getLsbD_cfsmCode _ (by omega)]
  simp [show 3 + i ≠ 5 by omega, show 3 + i ≠ 6 by omega, show 3 + i ≠ 7 by omega, show 3 + i < 8 by omega,
    show 3 + i ≠ 16 by omega]

/-- Bits 8 to 15 hold MODE. -/
theorem word_mode (s : State) : s.word.extractLsb' 8 8 = s.mode := by
  ext i hi
  rw [BitVec.getElem_extractLsb', getLsbD_word_flags s (by omega) (by omega)]
  simp [show 8 + i ≠ 5 by omega, show 8 + i ≠ 6 by omega, show 8 + i ≠ 7 by omega, show 8 + i ≠ 16 by omega, hi]

/-- Bits 17 to 31 are 0. -/
theorem word_rest (s : State) : s.word.extractLsb' 17 15 = 0 := by
  ext i hi
  rw [BitVec.getElem_extractLsb', getLsbD_word_flags s (by omega) (by omega),
    BitVec.getLsbD_of_ge s.mode _ (by omega)]
  simp [show 17 + i ≠ 5 by omega, show 17 + i ≠ 6 by omega, show 17 + i ≠ 7 by omega, show 17 + i ≠ 16 by omega]

/-- Settles O59: each field of the word is read back from its bits. -/
theorem stateWordFields : Obligations.StateWordFields := by
  intro s hacc
  have hidle := idle_of_accepting hacc
  have hword : s.begin.word = s.word := rfl
  refine ⟨s.begin.setResponse okCode (if s.lenValid then s.len else 0) s.word, ?_, ?_, ?_, ?_, ?_, ?_, ?_, word_mode s, ?_,
    word_rest s⟩
  · rw [exec_state hacc, finish, respond_clear _ _ _ _ (At.start hacc).clear, hword]
  · simp [State.setResponse, State.begin, hidle]
  · change (s.word.extractLsb' 0 3).toNat = _
    rw [word_cfsm]
    cases s.cfsm <;> rfl
  · change (s.word.extractLsb' 3 2).toNat = _
    rw [word_seqState]
    cases s.seqState <;> rfl
  · exact (getLsbD_word_flags s (i := 5) (by decide) (by decide)).trans (by simp)
  · exact (getLsbD_word_flags s (i := 6) (by decide) (by decide)).trans (by simp)
  · exact (getLsbD_word_flags s (i := 7) (by decide) (by decide)).trans (by simp)
  · exact (getLsbD_word_flags s (i := 16) (by decide) (by decide)).trans (by simp)

end Sys2Proof.Machine
end

section
/-! SUPPORT. The course of a capture (42_capture_fsm.md), transaction by transaction: where it stands, and what each
answer of the module makes of it. -/

namespace Sys2Proof.Machine

/-! ## Several steps -/

theorem run_succ {s t : State} (k : Nat) (h : step s = .next t) :
    Sys2Proof.core.run (k + 1) s = Sys2Proof.core.run k t := by
  have hcore : Sys2Proof.core.step s = .next t := h
  simp only [Host.Core.run, hcore]

theorem run_one {s t : State} (h : step s = .next t) : Sys2Proof.core.run 1 s = .next t := run_succ 0 h

theorem run_add {s t : State} {m : Nat} (n : Nat) (h : Sys2Proof.core.run m s = .next t) :
    Sys2Proof.core.run (m + n) s = Sys2Proof.core.run n t := by
  induction m generalizing s with
  | zero =>
    cases h
    rw [Nat.zero_add]
  | succ m ih =>
    rw [Nat.succ_add_eq_add_succ, Nat.add_succ]
    simp only [Host.Core.run] at h ⊢
    split at h
    · exact ih h
    · cases h
    · cases h

/-! ## Where a capture stands -/

/-- `w` is a running capture of `s` that has had `j` answers and left the visible events `es`, with POLL_CNT at `c`. Of the
other registers only CFSM, CS_N and the reply differ from those of `s`. -/
def Stage (s : State) (c j : Nat) (es : List Event) (w : State) : Prop :=
  s.clear = true ∧ ∃ log reply csN cfsm, visible log = s.events ++ es ∧
    w = { s with busy := true, log := log, answers := s.answers.drop j, draws := s.draws + j, reply := reply, csN := csN,
                 cfsm := cfsm, pollCnt := c }

theorem Stage.of_frame {s w : State} {c j : Nat} {es : List Event} (hclear : s.clear = true)
    (hw : w = { s with
      busy := true, log := w.log, answers := s.answers.drop j, draws := s.draws + j, reply := w.reply, csN := w.csN,
      cfsm := w.cfsm, pollCnt := c })
    (hevents : w.events = s.events ++ es) : Stage s c j es w :=
  ⟨hclear, _, _, _, _, hevents, hw⟩

theorem Stage.at {s w : State} {c j : Nat} {es : List Event} (h : Stage s c j es w) : At s j w := by
  obtain ⟨hclear, log, reply, csN, cfsm, -, rfl⟩ := h
  obtain ⟨hf, hq⟩ := (clear_iff s).mp hclear
  exact ⟨rfl, rfl, hf, hq⟩

/-- CFSM moves between two transactions. -/
theorem Stage.move {s w : State} {c j : Nat} {es : List Event} (h : Stage s c j es w) (x : Cfsm) :
    Stage s c j es { w with cfsm := x } := by
  obtain ⟨hclear, log, reply, csN, cfsm, hlog, rfl⟩ := h
  exact ⟨hclear, log, reply, csN, x, hlog, rfl⟩

theorem Stage.count {s w : State} {c j : Nat} {es : List Event} (h : Stage s c j es w) (n : Nat) :
    Stage s n j es { w with pollCnt := n } := by
  obtain ⟨hclear, log, reply, csN, cfsm, hlog, rfl⟩ := h
  exact ⟨hclear, log, reply, csN, cfsm, hlog, rfl⟩

/-- What a failure leaves of a capture that has had `j` answers and left the visible events `es` (R111, R136). -/
def Aborted (s : State) (j : Nat) (es : List Event) (code : Byte) (t : State) : Prop :=
  t = { s with log := t.log, answers := s.answers.drop j, draws := s.draws + j, reply := t.reply, csN := true,
               busy := false, cfsm := .idle, pollCnt := 0, status := code, resultLen := 0, resultData := 0 } ∧
  t.events = s.events ++ es

/-- A stuck command on a well-formed record stays as it is (R10, R112, R132). -/
theorem run_stuck {t : State} (hwf : recordWf t.params = true) (hclear : t.clear = true) (hs : stuck t = true) (n : Nat) :
    Sys2Proof.core.run n t = .next t := by
  obtain ⟨hf, hq⟩ := (clear_iff t).mp hclear
  induction n with
  | zero => rfl
  | succ n ih =>
    rw [run_succ n (step_stuck hwf hf hs), hostTurn_quiet t hq]
    exact ih

section
variable {s w : State} {c j : Nat} {es : List Event} (h : Stage s c j es w)
include h

theorem Stage.abort (hcs : w.csN = true) (code : Byte) : Aborted s j es code (abort code w) := by
  rw [abort_clear code w h.at.clear]
  obtain ⟨hclear, log, reply, csN, cfsm, hlog, rfl⟩ := h
  exact ⟨by rw [show csN = true from hcs], hlog⟩

/-- A read that answers `Ok` (R79). -/
theorem Stage.dbRead_ok (a : DbAddr) (ok : s.saysOk j = true) {err : State → State} {rest : Byte → State → State} :
    ∃ w', Stage s c (j + 1) (es ++ [.dbRd a (s.answerByte j 0)]) w' ∧
      (w'.cfsm = w.cfsm ∧ w'.reply ≠ .never) ∧ w'.csN = true ∧
      onReply (dbRead a w) err rest = rest (s.answerByte j 0) w' := by
  rw [dbRead_at_ok h.at a ok, onReply_ok _ _ _ _ rfl]
  obtain ⟨hclear, log, reply, csN, cfsm, hlog, rfl⟩ := h
  refine ⟨_, ⟨hclear, _, _, _, _, ?_, rfl⟩, ⟨rfl, ?_⟩, rfl, rfl⟩
  · simp [hlog]
  · nofun

/-- A FIFO-control write that answers `Ok` (R102, R103, R109). -/
theorem Stage.fifoControl_ok (v : Byte) (ok : s.saysOk j = true) {err : State → State} {rest : Byte → State → State} :
    ∃ w', Stage s c (j + 1) (es ++ [.dbWr (dbAddr s.params.regFifo) v]) w' ∧ w'.csN = true ∧
      onReply (fifoControl v w) err rest = rest 0 w' := by
  rw [fifoControl, dbWrite_at_ok h.at _ v ok, onReply_ok _ _ _ _ rfl]
  obtain ⟨hclear, log, reply, csN, cfsm, hlog, rfl⟩ := h
  exact ⟨_, ⟨hclear, _, _, _, _, by simp [hlog], rfl⟩, rfl, rfl⟩

/-- A read that answers `Err` (R79, R111). -/
theorem Stage.dbRead_fails (a : DbAddr) (err : s.saysErr j = true) (rest : Byte → State → State) :
    Aborted s (j + 1) (es ++ [.err (.dbRd a)]) busError (onReply (dbRead a w) (Machine.abort busError) rest) := by
  rw [dbRead_at_err h.at a err, onReply_err _ _ _ rfl]
  obtain ⟨hclear, log, reply, csN, cfsm, hlog, rfl⟩ := h
  exact Stage.abort (c := c) ⟨hclear, _, _, _, _, by simp [hlog], rfl⟩ rfl _

/-- A FIFO-control write that answers `Err` (R102, R103, R109, R111). -/
theorem Stage.fifoControl_fails (v : Byte) (err : s.saysErr j = true) (rest : Byte → State → State) :
    Aborted s (j + 1) (es ++ [.err (.dbWr (dbAddr s.params.regFifo) v)]) busError
      (onReply (fifoControl v w) (Machine.abort busError) rest) := by
  rw [fifoControl, dbWrite_at_err h.at _ v err, onReply_err _ _ _ rfl]
  obtain ⟨hclear, log, reply, csN, cfsm, hlog, rfl⟩ := h
  exact Stage.abort (c := c) ⟨hclear, _, _, _, _, by simp [hlog], rfl⟩ rfl _

/-- A transaction without an outcome (R10, R112). -/
theorem Stage.hangs_of_never (hwf : recordWf s.params = true) {log : List Event} (hlog : visible log = s.events ++ es)
    (csN : Bool) (drain : Count) (err : State → State) (rest : Byte → State → State) :
    ∃ t, onReply { w with
        log := log, answers := s.answers.drop (j + 1), draws := s.draws + (j + 1), reply := .never, csN := csN,
        drainIdx := drain } err rest = t ∧ hangs s t j ∧ t.events = s.events ++ es := by
  obtain ⟨hclear, log', reply, csN', cfsm, -, rfl⟩ := h
  exact ⟨_, onReply_never _ _ _ rfl, ⟨rfl, rfl, rfl, rfl, rfl, rfl, rfl, rfl, rfl, rfl,
    run_stuck hwf hclear (stuck_of_never rfl rfl)⟩, hlog⟩

theorem Stage.events : w.events = s.events ++ es := by
  obtain ⟨-, log, reply, csN, cfsm, hlog, rfl⟩ := h
  exact hlog

/-- What stands in LOG beside the visible events does not show. -/
theorem Stage.visible_select : visible (w.log ++ [.wait .csSettle]) = s.events ++ es := by
  rw [visible_append, visible_csSettle, visible_nil, List.append_nil]
  exact h.events

/-- A read without an outcome (R79, R112). -/
theorem Stage.dbRead_hangs (hwf : recordWf s.params = true) (a : DbAddr) (no : s.saysNothing j = true)
    (err : State → State) (rest : Byte → State → State) :
    hangs s (onReply (dbRead a w) err rest) j ∧ (onReply (dbRead a w) err rest).events = s.events ++ es := by
  obtain ⟨t, ht, hh⟩ := h.hangs_of_never hwf h.visible_select false w.drainIdx err rest
  rw [dbRead_at_nothing h.at a no, ht]
  exact hh

/-- A FIFO-control write without an outcome (R102, R103, R109, R112). -/
theorem Stage.fifoControl_hangs (hwf : recordWf s.params = true) (v : Byte) (no : s.saysNothing j = true)
    (err : State → State) (rest : Byte → State → State) :
    hangs s (onReply (fifoControl v w) err rest) j ∧ (onReply (fifoControl v w) err rest).events = s.events ++ es := by
  obtain ⟨t, ht, hh⟩ := h.hangs_of_never hwf h.visible_select false w.drainIdx err rest
  rw [fifoControl, dbWrite_at_nothing h.at _ v no, ht]
  exact hh

/-- A burst without an outcome (R80, R112). -/
theorem Stage.dbBurst_hangs (hwf : recordWf s.params = true) (n : Count) (dst : BurstDst) (no : s.saysNothing j = true)
    (err : State → State) (rest : Byte → State → State) :
    hangs s (onReply (dbBurst n dst w) err rest) j ∧
      (onReply (dbBurst n dst w) err rest).events = s.events ++ es := by
  obtain ⟨t, ht, hh⟩ := h.hangs_of_never hwf h.visible_select false 0 err rest
  rw [dbBurst_at_nothing h.at n dst no, ht]
  exact hh

end

end Sys2Proof.Machine
end

section
/-! SUPPORT. The course of a capture from its poll on (R104 to R113). -/

namespace Sys2Proof.Machine

/-- What a burst of `n` bytes leaves at the drain's destination, and in DRAIN_IDX (R80, R109, R110). -/
def State.received (s : State) (n : Count) (bytes : List Byte) : State :=
  { s with drainIdx := n, buf := if s.params.push then s.buf else s.buf.writeBytes 0 bytes,
           out := if s.params.push then s.out ++ bytes else s.out }

/-- The OUT event of bytes that arrive (R44, R110). -/
def outEvents (p : Params) (bytes : List Byte) : List Event := if p.push then [.out bytes] else []

theorem outEvents_push {p : Params} (hp : p.push = true) (bytes : List Byte) : outEvents p bytes = [.out bytes] := if_pos hp

theorem outEvents_pull {p : Params} (hp : p.push = false) (bytes : List Byte) : outEvents p bytes = [] := by
  rw [outEvents, hp, if_neg Bool.false_ne_true]

/-- The data-bus reads of a capture in order: its poll, and the three length reads (R104, R107). -/
def readAddr (p : Params) : Nat → DbAddr
  | 0 => dbAddr p.regTrig
  | 1 => dbAddr p.regLen1
  | 2 => dbAddr p.regLen2
  | _ => dbAddr p.regLen3

/-- What follows the third length read (R107). -/
def lengthKnown (l1 l2 l3 : Byte) (w : State) : State :=
  lengthChecks { w with len := fifoLength l1 l2 l3, lenValid := true }

/-- The third length read, and what follows it (R107). -/
def thirdLengthRead (l1 l2 : Byte) (w : State) : State :=
  onReply (dbRead (readAddr w.params 3) w) (abort busError) (lengthKnown l1 l2)

/-- The events of a capture from its poll to its end, cut at its burst and after it. -/
theorem finishEvents_eq (s : State) (v : Byte) (k : Nat) : finishEvents s v k =
    (finishEvents s v k).take 4 ++ outEvents s.params [s.params.hdr0, s.params.hdr1] ++
      (outEvents s.params (s.answerBytes (k + 3) (lengthAt s k).toNat) ++
        [.dbBurst (lengthAt s k) (s.answerBytes (k + 3) (lengthAt s k).toNat)]) ++
      if s.params.continuous then [.dbWr (dbAddr s.params.regFifo) s.params.fifoClear] else [] := by
  cases hp : s.params.push <;> simp [finishEvents, outEvents, hp, dbAddr]

/-- The second length read, and what follows it (R107). -/
def secondLengthRead (l1 : Byte) (w : State) : State :=
  onReply (dbRead (readAddr w.params 2) w) (abort busError) (thirdLengthRead l1)

section
variable {s w : State} {c j : Nat} {es : List Event} (h : Stage s c j es w)
include h

/-- The drain, when it answers `Ok` (R80, R109, R110). -/
theorem Stage.drain_ok (n : Count) (ok : s.saysOk j = true) {err : State → State} {rest : Byte → State → State} :
    ∃ w', Stage (s.received n (s.answerBytes j n.toNat)) c (j + 1)
        (es ++ (outEvents s.params (s.answerBytes j n.toNat) ++ [.dbBurst n (s.answerBytes j n.toNat)])) w' ∧
      w'.csN = true ∧ onReply (dbBurst n (drainDst s.params) w) err rest = rest 0 w' := by
  cases hp : s.params.push
  · rw [drainDst, hp, if_neg Bool.false_ne_true, dbBurst_at_ok_buf h.at n ok, onReply_ok _ _ _ _ rfl]
    obtain ⟨hclear, log, reply, csN, cfsm, hlog, rfl⟩ := h
    refine ⟨_, .of_frame hclear ?_ ?_, rfl, rfl⟩
    · simp [State.received, hp]
    · simp [State.events, hlog, outEvents, State.received, hp]
  · rw [drainDst, hp, if_pos rfl, dbBurst_at_ok_out h.at n ok, onReply_ok _ _ _ _ rfl]
    obtain ⟨hclear, log, reply, csN, cfsm, hlog, rfl⟩ := h
    refine ⟨_, .of_frame hclear ?_ ?_, rfl, rfl⟩
    · simp [State.received, hp]
    · simp [State.events, hlog, outEvents, State.received, hp]

/-- The drain, when it answers `Err` (R80, R109, R110, R111). -/
theorem Stage.drain_fails (n : Count) (err : s.saysErr j = true) (rest : Byte → State → State) :
    ∃ progress bytes, progress.toNat ≤ n.toNat ∧ (s.params.push = true → bytes.length ≤ n.toNat) ∧
      (s.params.push = false → bytes.length = n.toNat) ∧
      Aborted (s.received progress bytes) (j + 1) (es ++ (outEvents s.params bytes ++ [.err (.dbBurst n)])) busError
        (onReply (dbBurst n (drainDst s.params) w) (Machine.abort busError) rest) := by
  cases hp : s.params.push
  · rw [drainDst, hp, if_neg Bool.false_ne_true, dbBurst_at_err_buf h.at n err, onReply_err _ _ _ rfl]
    refine ⟨w.burstProgress n, s.answerBytes j n.toNat, burstProgress_le w n, nofun, fun _ => answerBytes_length .., ?_⟩
    obtain ⟨hclear, log, reply, csN, cfsm, hlog, rfl⟩ := h
    refine Stage.abort (c := c) (.of_frame (by exact hclear) ?_ ?_) ?_ _
    · simp [State.received, hp]
    · simp [State.events, hlog, outEvents, State.received, hp]
    · rfl
  · rw [drainDst, hp, if_pos rfl, dbBurst_at_err_out h.at n err, onReply_err _ _ _ rfl]
    refine ⟨w.burstProgress n, w.burstDebris n.toNat .out, burstProgress_le w n, fun _ => ?_, nofun, ?_⟩
    · simp [State.burstDebris]
    obtain ⟨hclear, log, reply, csN, cfsm, hlog, rfl⟩ := h
    refine Stage.abort (c := c) (.of_frame (by exact hclear) ?_ ?_) ?_ _
    · simp [State.received, hp]
    · simp [State.events, hlog, outEvents, State.received, hp]
    · rfl

/-- The push header (R110). -/
theorem Stage.header : ∃ w', pushHeader w = w' ∧ 
    Stage { s with out := if s.params.push then s.out ++ [s.params.hdr0, s.params.hdr1] else s.out } c j
      (es ++ outEvents s.params [s.params.hdr0, s.params.hdr1]) w' := by
  refine ⟨_, pushHeader_clear w h.at.clear, ?_⟩
  obtain ⟨hclear, log, reply, csN, cfsm, hlog, rfl⟩ := h
  cases hp : s.params.push
  · refine .of_frame hclear ?_ ?_
    · simp
    · simp [State.events, hlog, outEvents, hp]
  · refine .of_frame hclear ?_ ?_
    · simp [State.outWrite]
    · simp [State.events, hlog, outEvents, hp]

theorem Stage.params : w.params = s.params := by
  obtain ⟨hclear, log, reply, csN, cfsm, hlog, rfl⟩ := h
  rfl

/-- The poll, when it answers `Ok` (R104). -/
theorem Stage.poll_ok (ok : s.saysOk j = true) :
    ∃ w', Stage s c (j + 1) (es ++ [.dbRd (dbAddr s.params.regTrig) (s.answerByte j 0)]) w' ∧
      (w'.cfsm = w.cfsm ∧ w'.reply ≠ .never) ∧ w'.csN = true ∧ poll w = pollRead (s.answerByte j 0) w' := by
  rw [poll, h.params]
  exact h.dbRead_ok _ ok

/-- The length is written once all three registers are read (R107). -/
theorem Stage.measure (n : Count) :
    Stage { s with len := n, lenValid := true } c j es { w with len := n, lenValid := true } := by
  obtain ⟨hclear, log, reply, csN, cfsm, hlog, rfl⟩ := h
  exact ⟨hclear, log, reply, csN, cfsm, hlog, rfl⟩

/-- The poll that reads capture-done set (R104). -/
theorem Stage.poll_done (ok : s.saysOk j = true) (hdone : captureDone s.params (s.answerByte j 0) = true) :
    ∃ w', Stage s c (j + 1) (es ++ (finishEvents s (s.answerByte j 0) (j + 1)).take 1) w' ∧ poll w = readLength w' := by
  obtain ⟨w', h', -, -, e⟩ := h.poll_ok ok
  rw [pollRead, if_pos (by rw [h'.params]; exact hdone)] at e
  exact ⟨_, h'.move .done, e⟩

/-- The length reads that answer `Ok`, one by one (R107). -/
theorem Stage.length_reads (ok : s.saysOk j = true) :
    ∃ w₁, Stage s c (j + 1) (es ++ [.dbRd (dbAddr s.params.regLen1) (s.answerByte j 0)]) w₁ ∧
      readLength w = secondLengthRead (s.answerByte j 0) w₁ ∧
    (s.saysOk (j + 1) = true → ∃ w₂,
      Stage s c (j + 2) (es ++ [.dbRd (dbAddr s.params.regLen1) (s.answerByte j 0),
        .dbRd (dbAddr s.params.regLen2) (s.answerByte (j + 1) 0)]) w₂ ∧
      readLength w = thirdLengthRead (s.answerByte j 0) (s.answerByte (j + 1) 0) w₂ ∧
    (s.saysOk (j + 2) = true → ∃ w₃,
      Stage s c (j + 3) (es ++ [.dbRd (dbAddr s.params.regLen1) (s.answerByte j 0),
        .dbRd (dbAddr s.params.regLen2) (s.answerByte (j + 1) 0),
        .dbRd (dbAddr s.params.regLen3) (s.answerByte (j + 2) 0)]) w₃ ∧ w₃.csN = true ∧
      readLength w = lengthChecks { w₃ with len := lengthAt s j, lenValid := true })) := by
  obtain ⟨w₁, h₁, -, -, e₁⟩ := h.dbRead_ok (dbAddr s.params.regLen1) ok (err := Machine.abort busError)
    (rest := secondLengthRead)
  rw [← h.params] at e₁
  refine ⟨w₁, h₁, e₁, fun ok₁ => ?_⟩
  obtain ⟨w₂, h₂, -, -, e₂⟩ := h₁.dbRead_ok (dbAddr s.params.regLen2) ok₁ (err := Machine.abort busError)
    (rest := thirdLengthRead (s.answerByte j 0))
  rw [← h₁.params] at e₂
  refine ⟨w₂, by simpa using h₂, e₁.trans e₂, fun ok₂ => ?_⟩
  obtain ⟨w₃, h₃, -, hcs, e₃⟩ := h₂.dbRead_ok (dbAddr s.params.regLen3) ok₂ (err := Machine.abort busError)
    (rest := lengthKnown (s.answerByte j 0) (s.answerByte (j + 1) 0))
  rw [← h₂.params] at e₃
  exact ⟨w₃, by simpa using h₃, hcs, (e₁.trans e₂).trans e₃⟩

/-- The reads of a capture whose poll reads capture-done set, one by one (R104, R107). -/
theorem Stage.reads {n : Nat} (hn : n ≤ 3) (ok : ∀ m, m < n → s.saysOk (j + m) = true)
    (hdone : 0 < n → captureDone s.params (s.answerByte j 0) = true) :
    ∃ w' rest, Stage s c (j + n) (es ++ (finishEvents s (s.answerByte j 0) (j + 1)).take n) w' ∧
      poll w = onReply (dbRead (readAddr s.params n) w') (Machine.abort busError) rest := by
  rcases Nat.eq_zero_or_pos n with rfl | hpos
  · refine ⟨w, pollRead, by simpa using h, ?_⟩
    rw [← h.params]
    rfl
  obtain ⟨w₁, h₁, e₁⟩ := h.poll_done (ok 0 hpos) (hdone hpos)
  by_cases h1 : n = 1
  · subst h1
    refine ⟨w₁, secondLengthRead, h₁, e₁.trans ?_⟩
    rw [← h₁.params]
    rfl
  obtain ⟨w₂, h₂, e₂, next⟩ := h₁.length_reads (ok 1 (by omega))
  by_cases h2 : n = 2
  · subst h2
    refine ⟨w₂, thirdLengthRead (s.answerByte (j + 1) 0), by simpa [finishEvents, dbAddr] using h₂, (e₁.trans e₂).trans ?_⟩
    rw [← h₂.params]
    rfl
  obtain rfl : n = 3 := by omega
  obtain ⟨w₃, h₃, e₃, -⟩ := next (ok 2 (by omega))
  refine ⟨w₃, lengthKnown (s.answerByte (j + 1) 0) (s.answerByte (j + 2) 0), by simpa [finishEvents, dbAddr] using h₃, (e₁.trans e₃).trans ?_⟩
  rw [← h₃.params]
  rfl

/-- A capture all of whose reads answer `Ok` has its length (R107). -/
theorem Stage.measured (ok : ∀ m, m < 4 → s.saysOk (j + m) = true)
    (hdone : captureDone s.params (s.answerByte j 0) = true) :
    ∃ w', Stage { s with len := lengthAt s (j + 1), lenValid := true } c (j + 4)
        (es ++ (finishEvents s (s.answerByte j 0) (j + 1)).take 4) w' ∧ w'.csN = true ∧ poll w = lengthChecks w' := by
  obtain ⟨w₁, h₁, e₁⟩ := h.poll_done (ok 0 (by omega)) hdone
  obtain ⟨w₂, -, -, next⟩ := h₁.length_reads (ok 1 (by omega))
  obtain ⟨w₃, -, -, next⟩ := next (ok 2 (by omega))
  obtain ⟨w₄, h₄, hcs, e₄⟩ := next (ok 3 (by omega))
  refine ⟨_, Stage.measure (es := es ++ (finishEvents s (s.answerByte j 0) (j + 1)).take 4) ?_ _, hcs, e₁.trans e₄⟩
  simpa [finishEvents, dbAddr] using h₄

/-- The state whose length has been read and whose header has been pushed (R107, R110). -/
def State.framed (s : State) (len : Count) : State :=
  { s with len := len, lenValid := true, out := if s.params.push then s.out ++ [s.params.hdr0, s.params.hdr1] else s.out }

/-- A capture whose length fits comes to its burst (R108, R109). -/
theorem Stage.burst (ok : ∀ m, m < 4 → s.saysOk (j + m) = true) (hdone : captureDone s.params (s.answerByte j 0) = true)
    (hfits : lengthFits s.params (lengthAt s (j + 1))) :
    ∃ w', Stage (s.framed (lengthAt s (j + 1))) c (j + 4)
        (es ++ ((finishEvents s (s.answerByte j 0) (j + 1)).take 4 ++ outEvents s.params [s.params.hdr0, s.params.hdr1])) w' ∧
      poll w = onReply (dbBurst (lengthAt s (j + 1)) (drainDst s.params) w') (Machine.abort busError) fun _ => afterDrain := by
  obtain ⟨w₄, h₄, -, e⟩ := h.measured ok hdone
  obtain ⟨w', hw', h'⟩ := (h₄.move .draining).header
  have hlen : w₄.len = lengthAt s (j + 1) := by
    obtain ⟨-, _, _, _, _, -, rfl⟩ := h₄
    rfl
  have hlen' : w'.len = lengthAt s (j + 1) := by
    obtain ⟨-, _, _, _, _, -, rfl⟩ := h'
    rfl
  have hp : w₄.params = s.params := h₄.params
  have hp' : w'.params = s.params := h'.params
  obtain ⟨hcap, hraw⟩ := hfits
  refine ⟨w', by rw [List.append_assoc] at h'; exact h', ?_⟩
  rw [e, lengthChecks, if_neg, if_neg, drain, hw', hlen', hp']
  · rw [hp, hlen]
    simpa using hraw
  · rw [hp, hlen]
    simpa using hcap

/-- A capture whose burst answers `Ok` (R109). -/
theorem Stage.drained (ok : ∀ m, m < 5 → s.saysOk (j + m) = true)
    (hdone : captureDone s.params (s.answerByte j 0) = true) (hfits : lengthFits s.params (lengthAt s (j + 1))) :
    ∃ w', Stage ((s.framed (lengthAt s (j + 1))).received (lengthAt s (j + 1))
          (s.answerBytes (j + 4) (lengthAt s (j + 1)).toNat)) c (j + 5)
        (es ++ ((finishEvents s (s.answerByte j 0) (j + 1)).take 4 ++ outEvents s.params [s.params.hdr0, s.params.hdr1] ++
          (outEvents s.params (s.answerBytes (j + 4) (lengthAt s (j + 1)).toNat) ++
            [.dbBurst (lengthAt s (j + 1)) (s.answerBytes (j + 4) (lengthAt s (j + 1)).toNat)]))) w' ∧ w'.csN = true ∧
      poll w = afterDrain w' := by
  obtain ⟨w₄, h₄, e₄⟩ := h.burst (fun m hm => ok m (by omega)) hdone hfits
  obtain ⟨w', h', hcs, e⟩ := h₄.drain_ok (lengthAt s (j + 1)) (ok 4 (by omega)) (err := Machine.abort busError)
    (rest := fun _ => afterDrain)
  refine ⟨w', ?_, hcs, e₄.trans e⟩
  rw [← List.append_assoc es]
  exact h'

/-- The end of T5: the re-clear of a continuous block, when it answers `Ok` (R109). -/
theorem Stage.afterDrain_ok (hcs : w.csN = true) (ok : s.params.continuous = true → s.saysOk j = true) :
    ∃ w' k, Stage s c k (es ++ if s.params.continuous then [.dbWr (dbAddr s.params.regFifo) s.params.fifoClear] else []) w' ∧
      w'.csN = true ∧ w'.cfsm = (if s.params.continuous then .cleared else .idle) ∧ afterDrain w = captureEnd w' := by
  have hp := h.params
  by_cases hc : s.params.continuous = true
  · obtain ⟨w', h', hcs', e⟩ := h.fifoControl_ok w.params.fifoClear (ok hc) (err := Machine.abort busError)
      (rest := fun _ d => Machine.captureEnd { d with cfsm := .cleared })
    rw [hp] at h'
    refine ⟨{ w' with cfsm := .cleared }, j + 1, ?_, hcs', by rw [if_pos hc], ?_⟩
    · rw [if_pos hc]
      exact h'.move .cleared
    · rw [afterDrain, if_pos (by rw [hp]; exact hc)]
      exact e
  · refine ⟨{ w with cfsm := .idle }, j, ?_, hcs, by rw [if_neg hc], ?_⟩
    · rw [if_neg hc, List.append_nil]
      exact h.move .idle
    · rw [afterDrain, if_neg (by rw [hp]; exact hc)]

/-- The end of a capture (R100, R113). -/
theorem Stage.captureEnd :
    captureEnd w = { s with
      log := (captureEnd w).log, answers := (captureEnd w).answers, draws := (captureEnd w).draws,
      reply := (captureEnd w).reply, csN := w.csN, busy := false, cfsm := w.cfsm, pollCnt := c,
      obuf := if s.params.raw then (emitPixels s).obuf else s.obuf, status := okCode,
      resultLen := if s.params.raw then pixelCount s.params else s.len,
      resultData := if s.params.raw then s.len.setWidth 32 else 0 } ∧
    (Machine.captureEnd w).events = s.events ++ es := by
  have hevents := h.events
  have hat := h.at
  rw [Machine.captureEnd, h.params]
  obtain ⟨hclear, log, reply, csN, cfsm, hlog, rfl⟩ := h
  cases hraw : s.params.raw
  · rw [if_neg Bool.false_ne_true, finish, respond_clear _ _ _ _ hat.clear]
    exact ⟨rfl, hevents⟩
  · rw [if_pos rfl, finish, reconstruct_clear _ hat.clear, respond_clear _ _ _ _ (by exact hat.clear)]
    exact ⟨rfl, hevents⟩

omit h in
theorem received_out (s : State) (len : Count) (bytes : List Byte) : ((s.framed len).received len bytes).out =
    if s.params.push then s.out ++ [s.params.hdr0, s.params.hdr1] ++ bytes else s.out := by
  simp only [State.received, State.framed]
  split <;> rfl

/-- A capture that completes (R100 to R110, R113). -/
theorem Stage.completes (hbus : s.bus = none) (hbuf : s.buf.wf = true) (hobuf : s.obuf.wf = true)
    (ok : ∀ m, m < (if s.params.continuous then 6 else 5) → s.saysOk (j + m) = true)
    (hdone : captureDone s.params (s.answerByte j 0) = true) (hfits : lengthFits s.params (lengthAt s (j + 1))) :
    captureLeaves s (poll w) (j + 1) ∧ (poll w).pollCnt = c ∧
      (poll w).events = s.events ++ es ++ finishEvents s (s.answerByte j 0) (j + 1) := by
  obtain ⟨w₅, h₅, hcs₅, e₅⟩ := h.drained (fun m hm => ok m (by split <;> omega)) hdone hfits
  obtain ⟨w₆, k, h₆, hcs₆, hcfsm, e₆⟩ := h₅.afterDrain_ok hcs₅ fun (hc : s.params.continuous = true) =>
    ok 5 (by rw [if_pos hc]; omega)
  obtain ⟨ht, hevents⟩ := h₆.captureEnd
  rw [e₅, e₆]
  generalize Machine.captureEnd w₆ = t at ht hevents
  have htbuf : t.buf = if s.params.push then s.buf else
      s.buf.writeBytes 0 (s.answerBytes (j + 4) (lengthAt s (j + 1)).toNat) := congrArg State.buf ht
  have htout := (congrArg State.out ht).trans (received_out s _ _)
  have htobuf : t.obuf = if s.params.raw then (emitPixels ((s.framed (lengthAt s (j + 1))).received (lengthAt s (j + 1))
      (s.answerBytes (j + 4) (lengthAt s (j + 1)).toNat))).obuf else s.obuf := congrArg State.obuf ht
  have htcount : t.pollCnt = c := congrArg State.pollCnt ht
  refine ⟨⟨?_, fun hp => ?_, fun hp => ?_, fun hraw => ?_, fun hraw => ?_⟩, htcount, ?_⟩
  · refine ht.trans ?_
    simp [State.received, State.framed, hcs₆, hcfsm, htcount, hbus, htbuf, htobuf, htout]
    exact ⟨rfl, by split <;> simp⟩
  · rw [htbuf, htout, if_pos hp, if_pos hp]
    exact ⟨rfl, rfl⟩
  · rw [htbuf, htout, hp, if_neg Bool.false_ne_true, if_neg Bool.false_ne_true]
    refine ⟨rfl, fun x hx => ?_, fun x hx => ?_⟩
    · exact (read_burst hbuf s _ _ x).trans (if_pos hx)
    · exact (read_burst hbuf s _ _ x).trans (if_neg (by omega))
  · rw [htobuf]
    exact if_neg (by simp [hraw])
  · rw [htobuf, if_pos hraw]
    obtain ⟨hpixel, hrest⟩ := emitPixels_read (s := (s.framed (lengthAt s (j + 1))).received (lengthAt s (j + 1))
      (s.answerBytes (j + 4) (lengthAt s (j + 1)).toNat)) hobuf
    refine ⟨fun r x hr hx => (hpixel r x hr hx).trans ?_, hrest⟩
    rw [ht]
    rfl
  · rw [hevents]
    conv_rhs => rw [finishEvents_eq, List.append_assoc, ← List.append_assoc es]
    rfl

end

end Sys2Proof.Machine
end

section
/-! SUPPORT. The statements about CAPTURE (42_capture_fsm.md): its own instruction up to its first poll, and each end of a
poll, whether it is the first or a later one. -/

namespace Sys2Proof.Machine

/-! ## Up to the poll -/

/-- A capture that polls stands before its poll (R104). -/
theorem polling.stage {s : State} (h : polling s) :
    Stage { s with bus := none } s.pollCnt 0 [] { s with bus := none } := by
  obtain ⟨-, hclear, hb, -, -, -⟩ := h
  exact .of_frame hclear (by simp [hb]) (List.append_nil _).symm

theorem startEvents_length (s : State) : (startEvents s).length = pollIndex s := by
  rw [startEvents, pollIndex]
  split <;> rfl

/-- T2 that answers `Ok` (R103). -/
theorem Stage.startCapture_ok {s w : State} {c j : Nat} {es : List Event} (h : Stage s c j es w)
    (ok : s.saysOk j = true) :
    ∃ w', Stage s 0 (j + 1) (es ++ [.dbWr (dbAddr s.params.regFifo) s.params.fifoStart]) w' ∧ w'.cfsm = .capturing ∧
      startCapture w = poll w' := by
  obtain ⟨w', h', -, e⟩ := h.fifoControl_ok s.params.fifoStart ok (err := Machine.abort busError)
    (rest := fun _ d => poll { d with cfsm := .capturing, pollCnt := 0 })
  refine ⟨{ w' with cfsm := .capturing, pollCnt := 0 }, (h'.move .capturing).count 0, rfl, ?_⟩
  rw [startCapture, h.params]
  exact e

section
variable {s : State} (hacc : s.accepting = true)
include hacc

theorem begin_stage : Stage s s.pollCnt 0 [] s.begin := by
  obtain ⟨hf, -, hq⟩ := (accepting_iff s).mp hacc
  exact .of_frame ((clear_iff s).mpr ⟨hf, hq⟩) rfl (List.append_nil _).symm

/-- T1 that answers `Ok` (R102). -/
theorem clearFifo_idle (hc : s.cfsm = .idle) (ok : s.saysOk 0 = true) :
    ∃ w, Stage s s.pollCnt 1 [.dbWr (dbAddr s.params.regFifo) s.params.fifoClear] w ∧
      clearFifo s.begin = startCapture w := by
  obtain ⟨w, h, -, e⟩ := (begin_stage hacc).fifoControl_ok s.params.fifoClear ok (err := abort busError)
    (rest := fun _ d => startCapture { d with cfsm := .cleared })
  refine ⟨{ w with cfsm := .cleared }, h.move .cleared, ?_⟩
  rw [clearFifo, if_pos (show s.begin.cfsm = .idle from hc)]
  exact e

omit hacc in
/-- A capture from CLEARED starts with T2 (R102). -/
theorem clearFifo_cleared (hc : s.cfsm ≠ .idle) : clearFifo s.begin = startCapture s.begin :=
  if_neg hc

/-- A capture whose writes before its first poll answer `Ok` (R102, R103). -/
theorem clearFifo_ok (ok : ∀ m, m < pollIndex s → s.saysOk m = true) :
    ∃ w, Stage s 0 (pollIndex s) (startEvents s) w ∧ w.cfsm = .capturing ∧ clearFifo s.begin = poll w := by
  rw [startEvents, pollIndex]
  rw [pollIndex] at ok
  by_cases hc : s.cfsm = .idle
  · rw [if_pos hc] at ok ⊢
    obtain ⟨w₁, h₁, e₁⟩ := clearFifo_idle hacc hc (ok 0 (by omega))
    obtain ⟨w, h, hcap, e⟩ := h₁.startCapture_ok (ok 1 (by omega))
    rw [if_pos hc]
    exact ⟨w, h, hcap, e₁.trans e⟩
  · rw [if_neg hc] at ok ⊢
    obtain ⟨w, h, hcap, e⟩ := (begin_stage hacc).startCapture_ok (ok 0 (by omega))
    rw [if_neg hc]
    exact ⟨w, h, hcap, (clearFifo_cleared hc).trans e⟩

/-- A write of a capture before its first poll, when those before it answer `Ok` (R102, R103). -/
theorem clearFifo_write {j : Nat} (hj : j < pollIndex s) (ok : ∀ m, m < j → s.saysOk m = true) :
    ∃ w v rest, Stage s s.pollCnt j ((startEvents s).take j) w ∧
      (startTransactions s)[j]? = some (.dbWr (dbAddr s.params.regFifo) v) ∧
      clearFifo s.begin = onReply (fifoControl v w) (abort busError) rest := by
  rw [pollIndex] at hj
  rw [startEvents, startTransactions]
  by_cases hc : s.cfsm = .idle
  · rw [if_pos hc] at hj ⊢
    rw [if_pos hc]
    rcases Nat.eq_zero_or_pos j with rfl | hpos
    · refine ⟨s.begin, s.params.fifoClear, fun _ d => startCapture { d with cfsm := .cleared }, begin_stage hacc, rfl, ?_⟩
      rw [clearFifo, if_pos (show s.begin.cfsm = .idle from hc)]
      rfl
    · obtain rfl : j = 1 := by omega
      obtain ⟨w, h, e⟩ := clearFifo_idle hacc hc (ok 0 hpos)
      refine ⟨w, s.params.fifoStart, fun _ d => poll { d with cfsm := .capturing, pollCnt := 0 }, h, rfl, e.trans ?_⟩
      rw [startCapture, h.params]
  · rw [if_neg hc] at hj ⊢
    rw [if_neg hc]
    obtain rfl : j = 0 := by omega
    refine ⟨s.begin, s.params.fifoStart, fun _ d => poll { d with cfsm := .capturing, pollCnt := 0 }, begin_stage hacc, rfl,
      (clearFifo_cleared hc).trans rfl⟩

/-- CAPTURE past its gate (R100, R101). -/
theorem exec_capture_open (hwf : recordWf s.params = true) (hg : s.gateOpen = true) :
    exec .capture s = .next (clearFifo s.begin) := by
  rw [exec_capture_wf hacc hwf, capture, if_pos (show s.begin.gateOpen = true from hg)]

end

/-! ## A capture that completes (R107 to R110, R113) -/

theorem allOk_add {s : State} {i n : Nat} (h : s.allOk (i + n) = true) :
    (∀ m, m < i → s.saysOk m = true) ∧ ∀ m, m < n → s.saysOk (i + m) = true :=
  ⟨fun _ hm => allOk_of_lt h (by omega), fun _ hm => allOk_of_lt h (by omega)⟩

/-- Settles O41: its writes, then a poll that completes. -/
theorem captureCompletes : Obligations.CaptureCompletes := by
  intro s hacc hwf hg hbus hbuf hobuf i hok hdone hfits
  obtain ⟨hstart, hfinish⟩ := allOk_add hok
  obtain ⟨w, h, -, e⟩ := clearFifo_ok hacc hstart
  exact ⟨poll w, by rw [exec_capture_open hacc hwf hg, e], h.completes hbus hbuf hobuf hfinish hdone hfits⟩

/-- Settles O43: the poll completes from the state whose frame it took. -/
theorem donePollCompletesCapture : Obligations.DonePollCompletesCapture := by
  intro s hp hbuf hobuf hok hdone hfits
  have hdone' := hp.stage.completes rfl hbuf hobuf (fun m hm => by
    rw [Nat.zero_add]
    exact allOk_of_lt hok hm) hdone hfits
  rw [List.append_nil] at hdone'
  exact ⟨_, step_polling hp, hdone'⟩

/-! ## A poll that reads capture-done clear (R104, R105) -/

/-- A capture that has had `j` answers and waits for its next poll. -/
def Awaits (s : State) (c j : Nat) (es : List Event) (t : State) : Prop :=
  t = { s with log := t.log, answers := s.answers.drop j, draws := s.draws + j, reply := t.reply, csN := true,
               busy := true, cfsm := .capturing, pollCnt := c, bus := some (pollFrame s.params) } ∧
  t.reply ≠ .never ∧ t.events = s.events ++ es

section
variable {s w : State} {c j : Nat} {es : List Event} (h : Stage s c j es w)
include h

theorem Stage.awaits (hcs : w.csN = true) (hcap : w.cfsm = .capturing) (hr : w.reply ≠ .never) :
    Awaits s c j es (awaitPoll w) := by
  obtain ⟨hclear, log, reply, csN, cfsm, hlog, rfl⟩ := h
  obtain rfl : csN = true := hcs
  obtain rfl : cfsm = .capturing := hcap
  exact ⟨rfl, hr, hlog⟩

omit h in
theorem pollLimitStep_none {w : State} (hp : w.params.pollLimit = none) : pollLimitStep w = awaitPoll w := by
  simp only [pollLimitStep, hp]

omit h in
theorem pollLimitStep_some {w : State} {k : Nat} (hp : w.params.pollLimit = some k) : pollLimitStep w =
    if k ≤ w.pollCnt + 1 then abort captureStall { w with pollCnt := w.pollCnt + 1 }
    else awaitPoll { w with pollCnt := w.pollCnt + 1 } := by
  simp only [pollLimitStep, hp]

theorem Stage.pollCnt : w.pollCnt = c := by
  obtain ⟨-, _, _, _, _, -, rfl⟩ := h
  rfl

/-- A poll that reads capture-done clear, under no limit, below the limit, and at it (R104, R105). -/
theorem Stage.poll_clear (hcap : w.cfsm = .capturing) (ok : s.saysOk j = true)
    (hclear : captureDone s.params (s.answerByte j 0) = false) :
    (s.params.pollLimit = none →
      Awaits s c (j + 1) (es ++ [.dbRd (dbAddr s.params.regTrig) (s.answerByte j 0)]) (poll w)) ∧
    ∀ k, s.params.pollLimit = some k →
      (c + 1 < k →
        Awaits s (c + 1) (j + 1) (es ++ [.dbRd (dbAddr s.params.regTrig) (s.answerByte j 0)]) (poll w)) ∧
      (k ≤ c + 1 →
        Aborted s (j + 1) (es ++ [.dbRd (dbAddr s.params.regTrig) (s.answerByte j 0)]) captureStall (poll w)) := by
  obtain ⟨w', h', ⟨hcap', hr⟩, hcs, e⟩ := h.poll_ok ok
  have hp := h'.params
  have hcount := h'.pollCnt
  rw [hcap] at hcap'
  rw [e, pollRead, if_neg (by rw [hp, hclear]; exact Bool.false_ne_true)]
  refine ⟨fun hnone => ?_, fun k hk => ?_⟩
  · rw [pollLimitStep_none (by rw [hp]; exact hnone)]
    exact h'.awaits hcs hcap' hr
  · rw [pollLimitStep_some (by rw [hp]; exact hk), hcount]
    refine ⟨fun hlt => ?_, fun hle => ?_⟩
    · rw [if_neg (by omega)]
      exact (h'.count (c + 1)).awaits hcs hcap' hr
    · rw [if_pos hle]
      exact (h'.count (c + 1)).abort hcs _

end

/-- Settles O42: the first poll counts from 0. -/
theorem clearPollKeepsCapturing : Obligations.ClearPollKeepsCapturing := by
  intro s hacc hwf hg i hok hclear
  obtain ⟨hstart, hpoll⟩ := allOk_add hok
  obtain ⟨w, h, hcap, e⟩ := clearFifo_ok hacc hstart
  obtain ⟨hnone, hsome⟩ := h.poll_clear hcap (hpoll 0 (by omega)) hclear
  have hidle := idle_of_accepting hacc
  refine ⟨poll w, by rw [exec_capture_open hacc hwf hg, e], ?_⟩
  cases hlimit : s.params.pollLimit with
  | none =>
    obtain ⟨ht, -, hevents⟩ := hnone hlimit
    exact ⟨hevents.trans (List.append_assoc ..).symm, fun _ => ht, nofun⟩
  | some k =>
    obtain ⟨hbelow, hat⟩ := hsome k hlimit
    have hk : 1 ≤ k := (recordFacts hwf).pollLimit k hlimit
    by_cases h1 : k = 1
    · obtain ⟨ht, hevents⟩ := hat (by omega)
      refine ⟨hevents.trans (List.append_assoc ..).symm, fun hne => absurd h1 (by simpa using hne), fun _ => ?_⟩
      exact ht.trans (by rw [hidle])
    · obtain ⟨ht, -, hevents⟩ := hbelow (by omega)
      exact ⟨hevents.trans (List.append_assoc ..).symm, fun _ => ht, fun he => absurd he (by simpa using h1)⟩

/-- A capture that awaits another poll polls again (R104). -/
theorem polling.awaits {s t : State} {c j : Nat} {es : List Event} (hp : polling s)
    (h : Awaits { s with bus := none } c j es t) :
    polling t ∧ t.events = s.events ++ es ∧
      t = { s with log := t.log, answers := s.answers.drop j, draws := s.draws + j, reply := t.reply, csN := true,
                   pollCnt := c } := by
  obtain ⟨hwf, hclear, hb, hcap, hbus, -⟩ := hp
  obtain ⟨ht, hr, hevents⟩ := h
  refine ⟨?_, hevents, by rw [hb, hcap, hbus]; exact ht⟩
  rw [ht]
  exact ⟨hwf, hclear, rfl, rfl, rfl, hr⟩

/-- Settles O44: the count of the polls, against the limit. -/
theorem pollLimitStalls : Obligations.PollLimitStalls := by
  intro s k hp hk hok hclear
  obtain ⟨hbelow, hat⟩ := (hp.stage.poll_clear hp.2.2.2.1 hok hclear).2 k hk
  refine ⟨_, step_polling hp, ?_⟩
  generalize poll { s with bus := none } = t at hbelow hat
  rcases Nat.lt_or_ge (s.pollCnt + 1) k with hlt | hle
  · obtain ⟨-, hevents, ht⟩ := hp.awaits (hbelow hlt)
    refine ⟨hevents, fun hle => by omega, fun _ => ?_⟩
    rw [congrArg State.answers ht, congrArg State.draws ht]
    exact ht
  · obtain ⟨ht, hevents⟩ := hat hle
    refine ⟨hevents, fun _ => ?_, fun hlt => by omega⟩
    rw [congrArg State.answers ht, congrArg State.draws ht]
    exact ht

/-- Polling under no limit: the steps so far, and where they have come to. -/
theorem polling_run {s : State} (hp : polling s) (hlimit : s.params.pollLimit = none) (k : Nat) (hok : s.allOk k = true)
    (hclear : ∀ j, j < k → captureDone s.params (s.answerByte j 0) = false) :
    ∃ t, Sys2Proof.core.run k s = .next t ∧ polling t ∧
      t.events = s.events ++ (List.range k).map (fun j => .dbRd (s.params.regTrig.setWidth 7) (s.answerByte j 0)) ∧
      t = { s with log := t.log, answers := s.answers.drop k, draws := s.draws + k, reply := t.reply, csN := t.csN } := by
  induction k with
  | zero => exact ⟨s, rfl, hp, by simp, rfl⟩
  | succ k ih =>
    obtain ⟨t, hrun, ht, hevents, hframe⟩ := ih (by
      simp only [State.allOk, List.all_eq_true, List.mem_range] at hok ⊢
      exact fun x hx => hok x (by omega)) fun j hj => hclear j (by omega)
    have hat : At s k t := by
      obtain ⟨hf, hq⟩ := (clear_iff t).mp ht.2.1
      exact ⟨by rw [hframe], by rw [hframe], hf, hq⟩
    have hparams : t.params = s.params := by rw [hframe]
    have hbyte : t.answerByte 0 0 = s.answerByte k 0 := hat.answerByte 0 0
    have hpoll := (ht.stage.poll_clear ht.2.2.2.1
      ((hat.saysOk 0).trans (allOk_of_lt hok (Nat.lt_succ_self k)))
      (by
        change captureDone t.params (t.answerByte 0 0) = false
        rw [hparams, hbyte]
        exact hclear k (Nat.lt_succ_self k))).1 (by rw [← hparams] at hlimit; exact hlimit)
    obtain ⟨hu, huevents, huframe⟩ := ht.awaits hpoll
    refine ⟨_, (run_add 1 hrun).trans (run_one (step_polling ht)), hu, ?_, ?_⟩
    · rw [huevents, hevents, List.range_succ, List.map_append, List.append_assoc]
      change _ ++ (_ ++ [Event.dbRd (dbAddr t.params.regTrig) (t.answerByte 0 0)]) = _
      rw [hparams, hbyte]
      rfl
    · generalize poll { t with bus := none } = u at huframe
      have hcs : u.csN = true := by rw [huframe]
      rw [hat.answers, hat.draws, List.drop_drop, Nat.add_assoc] at huframe
      rw [hcs]
      refine huframe.trans ?_
      rw [hframe]

/-- Settles O45, by induction on the steps: each takes one more clear poll. -/
theorem unboundedPollingNeverEnds : Obligations.UnboundedPollingNeverEnds := by
  intro s k hp hlimit hok hclear
  obtain ⟨t, hrun, ht, hevents, hframe⟩ := polling_run hp hlimit k hok hclear
  exact ⟨t, hrun, ht, by rw [hframe], by rw [hframe], by rw [hframe], by rw [hframe], hevents⟩

/-! ## A frame that is refused (R108) -/

theorem lengthChecks_overlong {w : State} (hp : w.params.push = false) (h : w.params.cap < w.len.toNat) :
    lengthChecks w = abort capacityError w := by
  rw [lengthChecks, if_pos (by simp [hp, h])]

/-- On a well-formed record a raw frame that is too short is not too long: the mosaic fits in BUF (R7). -/
theorem lengthChecks_short {w : State} (hwf : recordWf w.params = true) (hraw : w.params.raw = true)
    (h : w.len.toNat < w.params.n * w.params.n) : lengthChecks w = abort frameSizeError w := by
  have hcap := (recordFacts hwf).rawCap hraw
  rw [lengthChecks, if_neg, if_pos (by simp [hraw, h])]
  simp
  omega

/-- A refusal at the length checks. -/
theorem Stage.refused {s w : State} {c : Nat} {start : List Event} (h : Stage s c start.length start w)
    (ok : ∀ m, m < 4 → s.saysOk (start.length + m) = true)
    (hdone : captureDone s.params (s.answerByte start.length 0) = true) {code : Byte}
    (hcode : ∀ w' : State, w'.params = s.params → w'.len = lengthAt s (start.length + 1) →
      lengthChecks w' = Machine.abort code w') :
    frameRefused s (poll w) start code := by
  obtain ⟨w', h', hcs, e⟩ := h.measured ok hdone
  have hlen : w'.len = lengthAt s (start.length + 1) := by
    obtain ⟨-, _, _, _, _, -, rfl⟩ := h'
    rfl
  rw [e, hcode w' h'.params hlen]
  obtain ⟨ht, hevents⟩ := h'.abort hcs code
  exact ⟨ht, hevents.trans (List.append_assoc ..).symm⟩

/-- Settles O47. -/
theorem overlongFrameRefused : Obligations.OverlongFrameRefused := by
  constructor
  · intro s hacc hwf hg hpush i hok hdone hlen
    obtain ⟨hstart, hreads⟩ := allOk_add hok
    obtain ⟨w, h, -, e⟩ := clearFifo_ok hacc hstart
    rw [← startEvents_length] at h
    rw [show i = _ from (startEvents_length s).symm] at hreads hdone hlen
    refine ⟨poll w, by rw [exec_capture_open hacc hwf hg, e], h.refused hreads hdone fun w' hp hl => ?_⟩
    exact lengthChecks_overlong (by rw [hp]; exact hpush) (by rw [hp, hl]; exact hlen)
  · intro s hp hpush hok hdone hlen
    refine ⟨_, step_polling hp, hp.stage.refused (start := []) (fun m hm => ?_) hdone fun w' hw' hl => ?_⟩
    · exact allOk_of_lt hok (by simpa using hm)
    · exact lengthChecks_overlong (by rw [hw']; exact hpush) (by rw [hw', hl]; exact hlen)

/-- Settles O48. -/
theorem shortFrameRefused : Obligations.ShortFrameRefused := by
  constructor
  · intro s hacc hwf hg hraw i hok hdone hlen
    obtain ⟨hstart, hreads⟩ := allOk_add hok
    obtain ⟨w, h, -, e⟩ := clearFifo_ok hacc hstart
    rw [← startEvents_length] at h
    rw [show i = _ from (startEvents_length s).symm] at hreads hdone hlen
    refine ⟨poll w, by rw [exec_capture_open hacc hwf hg, e], h.refused hreads hdone fun w' hp hl => ?_⟩
    exact lengthChecks_short (by rw [hp]; exact hwf) (by rw [hp]; exact hraw) (by rw [hp, hl]; exact hlen)
  · intro s hp hraw hok hdone hlen
    refine ⟨_, step_polling hp, hp.stage.refused (start := []) (fun m hm => ?_) hdone fun w' hw' hl => ?_⟩
    · exact allOk_of_lt hok (by simpa using hm)
    · exact lengthChecks_short (by rw [hw']; exact hp.1) (by rw [hw']; exact hraw) (by rw [hw', hl]; exact hlen)

end Sys2Proof.Machine
end

section
/-! SUPPORT. The statements about a capture one of whose transactions fails or has no outcome (R10, R111, R112). -/

namespace Sys2Proof.Machine

/-! ## The first transaction that fails (R111) -/

/-- The read of a capture at an offset from its poll on. -/
theorem finishTransactions_read (p : Params) (len : Count) {n : Nat} (hn : n ≤ 3) :
    (finishTransactions p len)[n]? = some (.dbRd (readAddr p n)) := by
  match n, hn with
  | 0, _ | 1, _ | 2, _ | 3, _ => rfl

/-- The transactions of a capture after its reads: the burst, and the re-clear of a continuous block. -/
theorem finishTransactions_late (p : Params) (len : Count) {n : Nat} {x : Transaction} (hn : ¬ n ≤ 3)
    (hx : (finishTransactions p len)[n]? = some x) :
    (n = 4 ∧ x = .dbBurst len) ∨
    (n = 5 ∧ p.continuous = true ∧ x = .dbWr (dbAddr p.regFifo) p.fifoClear) := by
  obtain ⟨k, rfl⟩ : ∃ k, n = k + 4 := ⟨n - 4, by omega⟩
  match k with
  | 0 => exact .inl ⟨rfl, (Option.some.inj hx).symm⟩
  | 1 =>
    cases hc : p.continuous
    · simp [finishTransactions, hc] at hx
    · refine .inr ⟨rfl, rfl, ?_⟩
      simp only [finishTransactions, hc, if_pos] at hx
      exact (Option.some.inj hx).symm
  | k + 2 =>
    have hlen : (finishTransactions p len).length ≤ 6 := by
      simp only [finishTransactions]
      split <;> simp
    rw [List.getElem?_eq_none (by omega)] at hx
    cases hx

/-- The events of the transactions before transaction `n` from the poll on. -/
theorem take_events (start es : List Event) (n : Nat) : (start ++ es).take (start.length + n) = start ++ es.take n :=
  List.take_length_add_append ..

/-- A failure before the burst leaves LEN and the frame's destination as they were (R107, R111). -/
theorem captureFails_early {s t : State} {start : List Event} {j : Nat} {x : Transaction} (hj : j < start.length + 4)
    (h : Aborted s (j + 1) ((start ++ finishEvents s (s.answerByte start.length 0) (start.length + 1)).take j ++ [.err x])
      busError t) : captureFails s t start j x := by
  obtain ⟨ht, hevents⟩ := h
  refine ⟨?_, fun _ => ⟨by rw [ht], by rw [ht], by rw [ht], hevents.trans (List.append_assoc ..).symm⟩,
    fun he => absurd he (by omega), fun hlt => absurd hlt (by omega)⟩
  rw [if_pos hj, if_pos hj]
  refine ht.trans ?_
  rw [ht]

section
variable {s w : State} {c : Nat} {start : List Event} (h : Stage s c start.length start w)
include h

/-- The reads (R104, R107). -/
theorem Stage.read_fails {n : Nat} (hn : n ≤ 3) (ok : ∀ m, m < n → s.saysOk (start.length + m) = true)
    (err : s.saysErr (start.length + n) = true)
    (hdone : 0 < n → captureDone s.params (s.answerByte start.length 0) = true) :
    captureFails s (poll w) start (start.length + n) (.dbRd (readAddr s.params n)) := by
  obtain ⟨w', rest, h', e⟩ := h.reads hn ok hdone
  refine captureFails_early (by omega) ?_
  rw [take_events, e]
  exact h'.dbRead_fails _ err rest

/-- The burst (R80, R109, R110). -/
theorem Stage.burst_fails (ok : ∀ m, m < 4 → s.saysOk (start.length + m) = true)
    (err : s.saysErr (start.length + 4) = true) (hdone : captureDone s.params (s.answerByte start.length 0) = true)
    (hfits : lengthFits s.params (lengthAt s (start.length + 1))) :
    captureFails s (poll w) start (start.length + 4) (.dbBurst (lengthAt s (start.length + 1))) := by
  obtain ⟨w', h', e⟩ := h.burst ok hdone hfits
  have hfails := h'.drain_fails (lengthAt s (start.length + 1)) err fun _ => afterDrain
  change ∃ progress bytes, _ ∧ _ ∧ _ ∧ Aborted _ _ _ _ (onReply (dbBurst _ (drainDst s.params) w') _ _) at hfails
  rw [← e] at hfails
  obtain ⟨progress, bytes, hprogress, hpush, hlen, ht, hevents⟩ := hfails
  generalize poll w = t at ht hevents
  have hevents' : t.events = s.events ++ (start ++
      ((finishEvents s (s.answerByte start.length 0) (start.length + 1)).take 4 ++
        outEvents s.params [s.params.hdr0, s.params.hdr1]) ++
      (outEvents s.params bytes ++ [.err (.dbBurst (lengthAt s (start.length + 1)))])) := hevents
  have hout := (congrArg State.out ht).trans (received_out s _ _)
  have hbuf' : t.buf = if s.params.push then s.buf else s.buf.writeBytes 0 bytes := congrArg State.buf ht
  have hidx : t.drainIdx = progress := congrArg State.drainIdx ht
  refine ⟨?_, fun hlt => absurd hlt (by omega), fun _ => ⟨by rw [hidx]; exact hprogress, fun hp => ?_, fun hp => ?_⟩,
    fun hlt => absurd hlt (by omega)⟩
  · rw [if_neg (by omega), if_neg (by omega), hidx, hbuf', hout]
    refine ht.trans ?_
    cases hp : s.params.push <;> simp [State.received, State.framed, hp]
  · rw [hbuf', if_pos hp]
    refine ⟨rfl, bytes, hpush hp, by rw [hout, if_pos hp], ?_⟩
    rw [hevents', take_events, outEvents_push hp, outEvents_push hp]
    simp
  · rw [hbuf', hout, hp, if_neg Bool.false_ne_true, if_neg Bool.false_ne_true]
    refine ⟨rfl, fun k hk => ?_, ?_⟩
    · exact Memory.read_writeBytes_other _ _ _ _ (.inr (by rw [hlen hp]; omega))
    · rw [hevents', take_events, outEvents_pull hp, outEvents_pull hp]
      simp

omit h in
theorem afterDrain_continuous {w : State} (hc : w.params.continuous = true) :
    afterDrain w = onReply (fifoControl w.params.fifoClear w) (abort busError) fun _ d =>
      captureEnd { d with cfsm := .cleared } := if_pos hc

omit h in
/-- The events of a continuous capture before its re-clear. -/
theorem dropLast_events {s : State} (start : List Event) (v : Byte) (k : Nat) (hc : s.params.continuous = true) :
    (start ++ finishEvents s v k).dropLast = start ++ ((finishEvents s v k).take 4 ++
      outEvents s.params [s.params.hdr0, s.params.hdr1] ++
      (outEvents s.params (s.answerBytes (k + 3) (lengthAt s k).toNat) ++
        [.dbBurst (lengthAt s k) (s.answerBytes (k + 3) (lengthAt s k).toNat)])) := by
  conv_lhs => rw [finishEvents_eq, if_pos hc, ← List.append_assoc, List.dropLast_concat]

/-- The re-clear (R109). -/
theorem Stage.reclear_fails (hbuf : s.buf.wf = true) (hc : s.params.continuous = true)
    (ok : ∀ m, m < 5 → s.saysOk (start.length + m) = true) (err : s.saysErr (start.length + 5) = true)
    (hdone : captureDone s.params (s.answerByte start.length 0) = true)
    (hfits : lengthFits s.params (lengthAt s (start.length + 1))) :
    captureFails s (poll w) start (start.length + 5) (.dbWr (dbAddr s.params.regFifo) s.params.fifoClear) := by
  obtain ⟨w', h', -, e⟩ := h.drained ok hdone hfits
  have hp' : w'.params = s.params := h'.params
  have hfails := h'.fifoControl_fails w'.params.fifoClear err fun _ d => Machine.captureEnd { d with cfsm := .cleared }
  rw [← afterDrain_continuous (by rw [hp']; exact hc), ← e, hp'] at hfails
  obtain ⟨ht, hevents⟩ := hfails
  generalize poll w = t at ht hevents
  have hout := (congrArg State.out ht).trans (received_out s _ _)
  have hbuf' : t.buf = if s.params.push then s.buf else
      s.buf.writeBytes 0 (s.answerBytes (start.length + 4) (lengthAt s (start.length + 1)).toNat) := congrArg State.buf ht
  have hidx : t.drainIdx = lengthAt s (start.length + 1) := congrArg State.drainIdx ht
  refine ⟨?_, fun hlt => absurd hlt (by omega), fun he => absurd he (by omega), fun _ => ⟨hidx, ?_, fun hp => ?_, fun hp => ?_⟩⟩
  · rw [if_neg (by omega), if_neg (by omega), hidx, hbuf', hout]
    refine ht.trans ?_
    cases hp : s.params.push <;> simp [State.received, State.framed, hp]
  · rw [hevents, dropLast_events start _ _ hc, List.append_assoc s.events]
    rfl
  · rw [hbuf', hout, if_pos hp, if_pos hp]
    exact ⟨rfl, rfl⟩
  · rw [hbuf', hout, hp, if_neg Bool.false_ne_true, if_neg Bool.false_ne_true]
    refine ⟨rfl, fun k hk => ?_, fun k hk => ?_⟩
    · exact (read_burst hbuf s _ _ k).trans (if_pos hk)
    · exact (read_burst hbuf s _ _ k).trans (if_neg (by omega))

/-- A poll of a capture whose transaction `n` from the poll on is the first to fail. -/
theorem Stage.poll_fails {n : Nat} {x : Transaction} (hbuf : s.buf.wf = true)
    (hx : (finishTransactions s.params (lengthAt s (start.length + 1)))[n]? = some x)
    (ok : ∀ m, m < n → s.saysOk (start.length + m) = true) (err : s.saysErr (start.length + n) = true)
    (hdone : 0 < n → captureDone s.params (s.answerByte start.length 0) = true)
    (hfits : 4 ≤ n → lengthFits s.params (lengthAt s (start.length + 1))) :
    captureFails s (poll w) start (start.length + n) x := by
  by_cases hn : n ≤ 3
  · rw [finishTransactions_read _ _ hn] at hx
    obtain rfl := Option.some.inj hx
    exact h.read_fails hn ok err hdone
  · rcases finishTransactions_late _ _ hn hx with ⟨rfl, rfl⟩ | ⟨rfl, hc, rfl⟩
    · exact h.burst_fails ok err (hdone (by omega)) (hfits (by omega))
    · exact h.reclear_fails hbuf hc ok err (hdone (by omega)) (hfits (by omega))

end

theorem startTransactions_length (s : State) : (startTransactions s).length = (startEvents s).length := by
  rw [startTransactions, startEvents]
  split <;> rfl

/-- Settles O49: a write before the first poll, or a transaction from the poll on. -/
theorem captureBusError : Obligations.CaptureBusError := by
  constructor
  · intro s j x hacc hwf hg hbuf i len hx hok herr hdone hfits
    rw [exec_capture_open hacc hwf hg]
    have hoks := fun m (hm : m < j) => allOk_of_lt hok hm
    rcases Nat.lt_or_ge j i with hj | hj
    · obtain ⟨w, v, rest, h, hx', e⟩ := clearFifo_write hacc hj hoks
      have hlen : j < (startEvents s).length := by rw [startEvents_length]; exact hj
      rw [List.getElem?_append_left (by rw [startTransactions_length]; exact hlen), hx'] at hx
      obtain rfl := Option.some.inj hx
      refine ⟨_, rfl, captureFails_early (by omega) ?_⟩
      rw [List.take_append_of_le_length hlen.le, e]
      exact h.fifoControl_fails v herr rest
    · obtain ⟨n, rfl⟩ := Nat.exists_eq_add_of_le hj
      obtain ⟨w, h, -, e⟩ := clearFifo_ok hacc fun m hm => hoks m (by omega)
      have hi : i = (startEvents s).length := (startEvents_length s).symm
      rw [← startEvents_length] at h
      clear_value i
      subst hi
      rw [List.getElem?_append_right (by rw [startTransactions_length]; omega), startTransactions_length,
        Nat.add_sub_cancel_left] at hx
      rw [e]
      exact ⟨_, rfl, h.poll_fails hbuf hx (fun m hm => hoks _ (by omega)) herr (fun hn => hdone (by omega))
        fun hn => hfits (by omega)⟩
  · intro s j x hp hbuf len hx hok herr hdone hfits
    have h := hp.stage.poll_fails (start := []) (n := j) hbuf hx
      (fun m hm => (congrArg s.saysOk (Nat.zero_add m)).trans (allOk_of_lt hok hm))
      ((congrArg s.saysErr (Nat.zero_add j)).trans herr) hdone hfits
    rw [List.length_nil, Nat.zero_add] at h
    exact ⟨_, step_polling hp, h⟩

/-! ## The first transaction without an outcome (R10, R112) -/

/-- The events before a read. -/
theorem eventsBefore_read (s : State) (start : List Event) {j : Nat} (hj : j ≤ start.length + 3) :
    eventsBefore s start j = (start ++ finishEvents s (s.answerByte start.length 0) (start.length + 1)).take j := by
  rw [eventsBefore, show j - (start.length + 3) = 0 by omega, ite_self, Nat.add_zero]

/-- The events before the burst: in push mode the header is one of them. -/
theorem eventsBefore_burst (s : State) (start : List Event) : eventsBefore s start (start.length + 4) =
    start ++ ((finishEvents s (s.answerByte start.length 0) (start.length + 1)).take 4 ++
      outEvents s.params [s.params.hdr0, s.params.hdr1]) := by
  rw [eventsBefore, Nat.add_assoc, take_events]
  cases hp : s.params.push
  · simp [finishEvents, outEvents, hp]
  · rw [show start.length + 4 - (start.length + 3) = 1 by omega]
    simp [finishEvents, outEvents, hp]

/-- The events before the re-clear: in push mode the frame on OUT is one of them. -/
theorem eventsBefore_reclear (s : State) (start : List Event) : eventsBefore s start (start.length + 5) =
    start ++ ((finishEvents s (s.answerByte start.length 0) (start.length + 1)).take 4 ++
      outEvents s.params [s.params.hdr0, s.params.hdr1] ++
      (outEvents s.params (s.answerBytes (start.length + 4) (lengthAt s (start.length + 1)).toNat) ++
        [.dbBurst (lengthAt s (start.length + 1))
          (s.answerBytes (start.length + 4) (lengthAt s (start.length + 1)).toNat)])) := by
  rw [eventsBefore, Nat.add_assoc, take_events]
  cases hp : s.params.push
  · simp [finishEvents, outEvents, hp]
  · rw [show start.length + 5 - (start.length + 3) = 2 by omega]
    simp [finishEvents, outEvents, hp]

/-- A poll of a capture whose transaction `n` from the poll on is the first without an outcome. -/
theorem Stage.poll_hangs {s w : State} {c n : Nat} {start : List Event} (h : Stage s c start.length start w)
    (hwf : recordWf s.params = true)
    (hn : n < (finishTransactions s.params (lengthAt s (start.length + 1))).length)
    (ok : ∀ m, m < n → s.saysOk (start.length + m) = true) (no : s.saysNothing (start.length + n) = true)
    (hdone : 0 < n → captureDone s.params (s.answerByte start.length 0) = true)
    (hfits : 4 ≤ n → lengthFits s.params (lengthAt s (start.length + 1))) :
    hangs s (poll w) (start.length + n) ∧ (poll w).events = s.events ++ eventsBefore s start (start.length + n) := by
  by_cases hle : n ≤ 3
  · obtain ⟨w', rest, h', e⟩ := h.reads hle ok hdone
    rw [eventsBefore_read s start (by omega), take_events, e]
    exact h'.dbRead_hangs hwf _ no _ rest
  obtain ⟨x, hx⟩ : ∃ x, (finishTransactions s.params (lengthAt s (start.length + 1)))[n]? = some x :=
    ⟨_, List.getElem?_eq_getElem hn⟩
  rcases finishTransactions_late _ _ hle hx with ⟨rfl, -⟩ | ⟨rfl, hc, -⟩
  · obtain ⟨w', h', e⟩ := h.burst ok (hdone (by omega)) (hfits (by omega))
    rw [eventsBefore_burst, e]
    exact h'.dbBurst_hangs hwf _ _ no _ _
  · obtain ⟨w', h', -, e⟩ := h.drained ok (hdone (by omega)) (hfits (by omega))
    have hp' : w'.params = s.params := h'.params
    rw [eventsBefore_reclear, e, afterDrain_continuous (by rw [hp']; exact hc)]
    exact h'.fifoControl_hangs hwf _ no _ _

/-- CAPTURE whose transaction `j` is the first without an outcome. -/
theorem capture_hangs {s : State} {j : Nat} (hacc : s.accepting = true) (hwf : recordWf s.params = true)
    (hg : s.gateOpen = true)
    (hj : j < (startTransactions s ++ finishTransactions s.params (lengthAt s (pollIndex s + 1))).length)
    (hok : s.allOk j = true) (no : s.saysNothing j = true)
    (hdone : pollIndex s < j → captureDone s.params (s.answerByte (pollIndex s) 0) = true)
    (hfits : pollIndex s + 4 ≤ j → lengthFits s.params (lengthAt s (pollIndex s + 1))) :
    ∃ t, exec .capture s = .next t ∧ hangs s t j ∧ t.events = s.events ++ eventsBefore s (startEvents s) j := by
  rw [exec_capture_open hacc hwf hg]
  have hoks := fun m (hm : m < j) => allOk_of_lt hok hm
  rcases Nat.lt_or_ge j (pollIndex s) with hlt | hge
  · obtain ⟨w, v, rest, h, -, e⟩ := clearFifo_write hacc hlt hoks
    have hlen : j < (startEvents s).length := by rw [startEvents_length]; exact hlt
    refine ⟨_, rfl, ?_⟩
    rw [eventsBefore_read s _ (by omega), List.take_append_of_le_length hlen.le, e]
    exact h.fifoControl_hangs hwf v no _ rest
  · obtain ⟨n, rfl⟩ := Nat.exists_eq_add_of_le hge
    obtain ⟨w, h, -, e⟩ := clearFifo_ok hacc fun m hm => hoks m (by omega)
    rw [List.length_append, startTransactions_length] at hj
    rw [← startEvents_length] at *
    rw [e]
    exact ⟨_, rfl, h.poll_hangs hwf (by omega) (fun m hm => hoks _ (by omega)) no (fun hn => hdone (by omega))
      fun hn => hfits (by omega)⟩

/-- A later poll of a capture whose transaction `j` from it on is the first without an outcome. -/
theorem polling_hangs {s : State} {j : Nat} (hp : polling s)
    (hj : j < (finishTransactions s.params (lengthAt s 1)).length) (hok : s.allOk j = true)
    (no : s.saysNothing j = true) (hdone : 0 < j → captureDone s.params (s.answerByte 0 0) = true)
    (hfits : 4 ≤ j → lengthFits s.params (lengthAt s 1)) :
    ∃ t, step s = .next t ∧ hangs s t j ∧ t.events = s.events ++ eventsBefore s [] j := by
  have h := hp.stage.poll_hangs (start := []) (n := j) hp.1 hj
    (fun m hm => (congrArg s.saysOk (Nat.zero_add m)).trans (allOk_of_lt hok hm))
    ((congrArg s.saysNothing (Nat.zero_add j)).trans no) hdone hfits
  rw [List.length_nil, Nat.zero_add] at h
  exact ⟨_, step_polling hp, h⟩

end Sys2Proof.Machine
end

section
/-! SUPPORT. Playback (41_sequencer.md) step by step: the machine's steps come to the loop of R89. -/

namespace Sys2Proof.Machine

/-! ## One step of playback (R88) -/

/-- `u` plays `tbl` and stands before its entries `es`. -/
structure Playhead (tbl : RegisterTable) (es : List (Option (CbAddr × Byte))) (u : State) : Prop where
  record : recordWf u.params = true
  clear : u.clear = true
  busy : u.busy = true
  bus : u.bus = none
  reply : u.reply ≠ .never
  run : u.seqState = .run
  table : tableOf u.params u.seqTbl = some tbl
  entries : tbl.entries.drop u.seqPc.toNat = es
  inTable : u.seqPc.toNat ≤ writeCount tbl

theorem Playhead.tableWf {tbl : RegisterTable} {es : List (Option (CbAddr × Byte))} {u : State} (h : Playhead tbl es u) :
    tableWf u.params.variant tbl = true := (recordFacts h.record).tableOf h.table

theorem drop_of_getElem? {α : Type} {l : List α} {i : Nat} {x : α} (h : l[i]? = some x) :
    l.drop i = x :: l.drop (i + 1) := by
  obtain ⟨hi, rfl⟩ := List.getElem?_eq_some_iff.mp h
  exact List.drop_eq_getElem_cons hi

/-- An entry that leaves the sequencer under way leaves nothing to its command. -/
theorem afterEntry_of_ne {u : State} (h : u.seqState ≠ .idle) : afterEntry u = u := by
  simp [afterEntry, h]

/-- An entry that leaves the sequencer idle returns to its command (R88, R89). -/
theorem afterEntry_of_idle {u : State} (hb : u.busy = true) (h : u.seqState = .idle) : afterEntry u = playReturned u := by
  simp [afterEntry, hb, h]

section
variable {tbl : RegisterTable} {es : List (Option (CbAddr × Byte))} {u : State} (h : Playhead tbl es u)
include h

theorem Playhead.step_entry {e : Option (CbAddr × Byte)} (he : tableEntry tbl u.seqPc.toNat = some e) :
    step u = .next (afterEntry (playEntry e u)) := by
  obtain ⟨hf, -⟩ := (clear_iff u).mp h.clear
  rw [Machine.step_entry h.record hf (stuck_of_seq (by rw [h.run]; nofun) h.reply) h.bus h.run,
    runFetched_fetchEntry h.table, he]

/-- The step at the playhead: the write of the entry found, or the end of the table (R90 to R93). -/
theorem Playhead.step_cases :
    (∃ a v rest, es = some (a, v) :: rest ∧ u.seqPc.toNat < writeCount tbl ∧
      step u = .next (afterEntry (seqWrite a v u))) ∨
    ((∀ s, playFrom es s = playEnd s ∧ playSteps es s = 1) ∧
      step u = .next (playReturned { u with seqState := .idle, reply := .ok 0 })) := by
  rcases tableEntry_of_le h.tableWf h.inTable with ⟨hlt, ⟨a, v⟩, he, hentry⟩ | ⟨hpc, he⟩
  · refine .inl ⟨a, v, tbl.entries.drop (u.seqPc.toNat + 1), ?_, hlt, h.step_entry he⟩
    rw [← h.entries, drop_of_getElem? hentry]
  · refine .inr ⟨?_, ?_⟩
    · have hend : tbl.entries[u.seqPc.toNat]? = none ∨ tbl.entries[u.seqPc.toNat]? = some none := by
        rw [hpc]
        exact (takeWhile_isSome_getElem? tbl.entries).2
      rw [← h.entries]
      rcases hend with hnone | hnone
      · rw [List.drop_eq_nil_of_le (List.getElem?_eq_none_iff.mp hnone)]
        exact fun s => ⟨rfl, rfl⟩
      · rw [drop_of_getElem? hnone]
        exact fun s => ⟨rfl, rfl⟩
    · rw [h.step_entry he, playEntry, playEnd_clear u h.clear, afterEntry_of_idle]
      · exact h.busy
      · rfl

/-- The playhead moves to the next entry. -/
theorem Playhead.next {e : Option (CbAddr × Byte)} {rest : List (Option (CbAddr × Byte))} (hes : es = e :: rest)
    (hlt : u.seqPc.toNat < writeCount tbl) {log : List Event} {answers : List Answer} {draws : Nat} :
    Playhead tbl rest
      { u with log := log, answers := answers, draws := draws, reply := .ok 0, seqPc := u.seqPc + 1 } := by
  have hpc := seqPc_succ h.tableWf hlt
  refine ⟨h.record, h.clear, h.busy, h.bus, nofun, h.run, h.table, ?_, ?_⟩
  · have := h.entries
    rw [hes] at this
    change tbl.entries.drop (u.seqPc + 1).toNat = rest
    rw [hpc, ← List.drop_drop, this]
    rfl
  · change (u.seqPc + 1).toNat ≤ writeCount tbl
    omega

end

/-! ## Several steps of playback -/

/-- `k` steps of a playback from `u` to `t`: SEQ_PC rises by at most one in each, and but for the last each makes at most one
transaction. -/
def Plays (k : Nat) (u t : State) : Prop :=
  Sys2Proof.core.run k u = .next t ∧
  ∀ j, j < k → ∃ x y, Sys2Proof.core.run j u = .next x ∧ step x = .next y ∧ x.busy = true ∧ x.seqState ≠ .idle ∧
    y.seqPc.toNat ≤ x.seqPc.toNat + 1 ∧ (j + 1 < k → y.draws ≤ x.draws + 1)

theorem Plays.last {u t : State} (hstep : step u = .next t) (hb : u.busy = true) (hseq : u.seqState ≠ .idle)
    (hpc : t.seqPc.toNat ≤ u.seqPc.toNat + 1) : Plays 1 u t := by
  refine ⟨run_one hstep, fun j hj => ?_⟩
  obtain rfl : j = 0 := by omega
  exact ⟨u, t, rfl, hstep, hb, hseq, hpc, fun hlt => absurd hlt (by omega)⟩

theorem Plays.cons {u w t : State} {k : Nat} (h : Plays k w t) (hstep : step u = .next w) (hb : u.busy = true)
    (hseq : u.seqState ≠ .idle) (hpc : w.seqPc.toNat ≤ u.seqPc.toNat + 1) (hdraws : w.draws ≤ u.draws + 1) :
    Plays (1 + k) u t := by
  obtain ⟨hrun, hsteps⟩ := h
  refine ⟨(run_add k (run_one hstep)).trans hrun, fun j hj => ?_⟩
  rcases Nat.eq_zero_or_pos j with rfl | hpos
  · exact ⟨u, w, rfl, hstep, hb, hseq, hpc, fun _ => hdraws⟩
  · obtain ⟨i, rfl⟩ := Nat.exists_eq_add_of_le (Nat.succ_le_of_lt hpos)
    obtain ⟨x, y, hx, hy, hbx, hsx, hpcy, hdy⟩ := hsteps i (by omega)
    exact ⟨x, y, (run_add i (run_one hstep)).trans hx, hy, hbx, hsx, hpcy, fun hlt => hdy (by omega)⟩

theorem seqPc_kept (pc : BitVec 16) : Kept (fun s => s.seqPc = pc) fun s => s.seqPc = pc where
  access h _ ha := ha.seqPc.trans h
  respond {s code len data} h _ _ _ := by
    rcases respond_cases s code len data with ⟨host, -, -, e⟩ | ⟨fault, host, -, -, -, e⟩ <;> rw [e] <;> exact h
  halt h := h

/-- The command to which a playback returns keeps SEQ_PC. -/
theorem playReturned_seqPc (u : State) : (playReturned u).seqPc = u.seqPc := by
  unfold playReturned
  split
  · exact (seqPc_kept u.seqPc).configureEnd id id rfl
  · exact (seqPc_kept u.seqPc).probeIdentity (fun _ h => h) rfl

/-- A command to which a playback returns that has no outcome does nothing (R11). -/
theorem playReturned_never {u : State} (h : u.reply = .never) : playReturned u = u := by
  unfold playReturned
  split
  · exact onReply_never _ _ _ h
  · exact onReply_never _ _ _ h

theorem settleEnd_of_ne {u : State} (h : u.seqState ≠ .settle) : settleEnd u = u := if_neg h

section
variable {base s : State} {k : Nat} (h : At base k s) (a : CbAddr) (v : Byte)
include h

/-- A write entry that answers `Ok` (R88, R94). -/
theorem seqWrite_at_ok (ok : base.saysOk k = true) : seqWrite a v s =
    if settleAfter s.params s.seqTbl s.seqPc.toNat then
      { s with log := s.log ++ [.cbWr a v] ++ [.wait .initSettle], answers := base.answers.drop (k + 1),
               draws := base.draws + (k + 1), reply := .ok 0, seqState := .settle }
    else
      { s with log := s.log ++ [.cbWr a v], answers := base.answers.drop (k + 1), draws := base.draws + (k + 1),
               reply := .ok 0, seqPc := s.seqPc + 1 } := by
  rw [seqWrite, cbWrite_at_ok h a v ok, afterWrite, onReply_ok _ _ _ _ rfl]
  rfl

/-- A write entry that answers `Err` (R95). -/
theorem seqWrite_at_err (err : base.saysErr k = true) : seqWrite a v s =
    { s with log := s.log ++ [.err (.cbWr a v)], answers := base.answers.drop (k + 1), draws := base.draws + (k + 1),
             reply := .err, seqState := .idle } := by
  rw [seqWrite, cbWrite_at_err h a v err]
  rfl

/-- A write entry without an outcome (R88). -/
theorem seqWrite_at_nothing (no : base.saysNothing k = true) : seqWrite a v s =
    { s with answers := base.answers.drop (k + 1), draws := base.draws + (k + 1), reply := .never } := by
  rw [seqWrite, cbWrite_at_nothing h a v no]
  rfl

end

theorem seqPc_add_one_le (pc : BitVec 16) : (pc + 1).toNat ≤ pc.toNat + 1 := by
  rw [BitVec.toNat_add]
  exact Nat.mod_le _ _

/-- The steps from a playhead that come to the loop of R89. -/
def Playhead.Comes (es : List (Option (CbAddr × Byte))) (u : State) : Prop :=
  Plays (playSteps es u) u (playReturned (playFrom es u))

section
variable {tbl : RegisterTable} {es : List (Option (CbAddr × Byte))} {u : State} (h : Playhead tbl es u)
include h

theorem Playhead.seq_ne_idle : u.seqState ≠ .idle := by
  rw [h.run]
  nofun

/-- The end of the table. -/
theorem Playhead.comes_end (hend : ∀ s, playFrom es s = playEnd s ∧ playSteps es s = 1)
    (hstep : step u = .next (playReturned { u with seqState := .idle, reply := .ok 0 })) : Playhead.Comes es u := by
  rw [Comes, (hend u).1, (hend u).2, playEnd_clear u h.clear]
  exact .last hstep h.busy h.seq_ne_idle (by rw [playReturned_seqPc]; exact Nat.le_succ _)

/-- A write entry and what follows it. -/
theorem Playhead.comes_write {a : CbAddr} {v : Byte} {rest : List (Option (CbAddr × Byte))}
    (hes : es = some (a, v) :: rest) (hlt : u.seqPc.toNat < writeCount tbl)
    (hstep : step u = .next (afterEntry (seqWrite a v u))) (ih : ∀ w, Playhead tbl rest w → Playhead.Comes rest w) :
    Playhead.Comes es u := by
  have hat := At.self h.clear
  have hseq := h.seq_ne_idle
  rw [hes, Comes, playSteps, playFrom]
  rcases says_cases u 0 with ⟨ho, -, -⟩ | ⟨-, he, -⟩ | ⟨-, -, hn⟩
  · have hw := seqWrite_at_ok hat a v ho
    generalize seqWrite a v u = w at hw hstep
    split at hw
    · have hsettle : w.seqState = .settle := by rw [hw]
      have hr : w.reply = .ok 0 := by rw [hw]
      have hclear : w.clear = true := by rw [hw]; exact h.clear
      have hend := settleEnd_clear w hclear hsettle
      rw [afterEntry_of_ne (by rw [hsettle]; nofun)] at hstep
      have hstep' : step w = .next (settleEnd w) :=
        step_settle (by rw [hw]; exact h.record) ((clear_iff w).mp hclear).1
          (stuck_of_seq (by rw [hsettle]; nofun) (by rw [hr]; nofun)) (by rw [hw]; exact h.bus) hsettle
      have hnext : Playhead tbl rest (settleEnd w) := by
        rw [hend, hw, ← h.run]
        exact h.next hes hlt
      have hr' : (settleEnd w).reply = .ok 0 := by rw [hend]; exact hr
      simp only [hr, hr', if_pos hsettle]
      rw [show 2 + playSteps rest (settleEnd w) = 1 + (1 + playSteps rest (settleEnd w)) by omega]
      refine ((ih _ hnext).cons hstep' (by rw [hw]; exact h.busy) (by rw [hsettle]; nofun) ?_ ?_).cons hstep h.busy hseq ?_ ?_
      · rw [hend]
        exact seqPc_add_one_le _
      · rw [hend]
        exact Nat.le_succ _
      · rw [hw]
        exact Nat.le_succ _
      · rw [hw]
    · have hrun : w.seqState = .run := by rw [hw]; exact h.run
      have hr : w.reply = .ok 0 := by rw [hw]
      rw [afterEntry_of_ne (by rw [hrun]; nofun)] at hstep
      have hnext : Playhead tbl rest w := by
        rw [hw]
        exact h.next hes hlt
      simp only [settleEnd_of_ne (show w.seqState ≠ .settle by rw [hrun]; nofun), hr,
        if_neg (show w.seqState ≠ .settle by rw [hrun]; nofun)]
      refine (ih w hnext).cons hstep h.busy hseq ?_ ?_
      · rw [hw]
        exact seqPc_add_one_le _
      · rw [hw]
  · have hw := seqWrite_at_err hat a v he
    generalize seqWrite a v u = w at hw hstep
    have hidle : w.seqState = .idle := by rw [hw]
    have hr : w.reply = .err := by rw [hw]
    rw [afterEntry_of_idle (by rw [hw]; exact h.busy) hidle] at hstep
    simp only [settleEnd_of_ne (show w.seqState ≠ .settle by rw [hidle]; nofun), hr]
    refine .last hstep h.busy hseq ?_
    rw [playReturned_seqPc, hw]
    exact Nat.le_succ _
  · have hw := seqWrite_at_nothing hat a v hn
    generalize seqWrite a v u = w at hw hstep
    have hrun : w.seqState = .run := by rw [hw]; exact h.run
    have hr : w.reply = .never := by rw [hw]
    rw [afterEntry_of_ne (by rw [hrun]; nofun)] at hstep
    simp only [settleEnd_of_ne (show w.seqState ≠ .settle by rw [hrun]; nofun), hr, playReturned_never hr]
    refine .last hstep h.busy hseq ?_
    rw [hw]
    exact Nat.le_succ _

end

/-- The steps of a playback come to the loop of R89. -/
theorem Playhead.comes {tbl : RegisterTable} (es : List (Option (CbAddr × Byte))) :
    ∀ u, Playhead tbl es u → Playhead.Comes es u := by
  induction es with
  | nil =>
    intro u h
    rcases h.step_cases with ⟨a, v, rest, hes, -⟩ | ⟨hend, hstep⟩
    · cases hes
    · exact h.comes_end hend hstep
  | cons e es ih =>
    intro u h
    rcases h.step_cases with ⟨a, v, rest, hes, hlt, hstep⟩ | ⟨hend, hstep⟩
    · injection hes with he hrest
      subst he hrest
      exact h.comes_write rfl hlt hstep ih
    · exact h.comes_end hend hstep

end Sys2Proof.Machine
end

section
/-! SUPPORT. The statements about the sequencer and the commands that play a table (41_sequencer.md, 43_selftest.md). -/

namespace Sys2Proof.Machine

/-! ## The start of a playback -/

section
variable {s : State} (hacc : s.accepting = true) (hwf : recordWf s.params = true) (hbus : s.bus = none) {r : TableRef}
  {tbl : RegisterTable} (ht : tableOf s.params r = some tbl)
include hacc

theorem starts_at (r : TableRef) : At s 0 (s.starts r) := by
  obtain ⟨hf, -, hq⟩ := (accepting_iff s).mp hacc
  exact ⟨rfl, rfl, hf, hq⟩

include hwf hbus ht

theorem starts_comes : Playhead.Comes tbl.entries (s.starts r) :=
  Playhead.comes tbl.entries _
    ⟨hwf, (starts_at hacc r).clear, rfl, hbus, nofun, rfl, ht, List.drop_zero, Nat.zero_le _⟩

/-- A playback that ends its command ends it at its last step, and not before (R89, R130). -/
theorem starts_endsIn {t : State} (hplay : playReturned (playFrom tbl.entries (s.starts r)) = t) (hb : t.busy = false) :
    ∃ n, endsIn (s.starts r) n t := by
  obtain ⟨hrun, hsteps⟩ := starts_comes hacc hwf hbus ht
  refine ⟨_, hplay ▸ hrun, hb, fun j hj => ?_⟩
  obtain ⟨x, -, hx, -, hbusy, -⟩ := hsteps j hj
  exact ⟨x, hx, hbusy⟩

end

/-- Settles O36: the steps of the playback, one by one. -/
theorem playbackIsEntryByEntry : Obligations.PlaybackIsEntryByEntry := by
  intro s r tbl hacc hwf hbus ht
  obtain ⟨hrun, hsteps⟩ := starts_comes hacc hwf hbus ht
  exact ⟨fun hr => by rw [hr]; exact exec_probe hacc, fun m hr => by rw [hr]; exact exec_configure hacc m, hrun, hsteps⟩

/-- A playback of `r` that has come to entry `j` with `i` answers, having left the events `es`. -/
def State.played (s : State) (r : TableRef) (j i : Nat) (es : List Event) (reply : Reply) (q : SeqState) : State :=
  { s with busy := true, log := s.log ++ es, answers := s.answers.drop i, draws := s.draws + i, reply := reply, seqTbl := r,
           seqPc := BitVec.ofNat 16 j, seqState := q }

/-- The events of a playback all show. -/
theorem visible_playEvents (p : Params) (r : TableRef) (ws : List (CbAddr × Byte)) (i : Nat) :
    visible (playEvents p r ws i) = playEvents p r ws i := by
  induction ws generalizing i with
  | nil => rfl
  | cons w ws ih =>
    simp only [playEvents, visible_append, ih]
    split <;> rfl

section
variable {s : State} (hacc : s.accepting = true)
include hacc

theorem played_at (r : TableRef) (j i : Nat) (es : List Event) (reply : Reply) (q : SeqState) :
    At s i (s.played r j i es reply q) := by
  obtain ⟨hf, -, hq⟩ := (accepting_iff s).mp hacc
  exact ⟨rfl, rfl, hf, hq⟩

variable (hwf : recordWf s.params = true) {r : TableRef} {tbl : RegisterTable} (ht : tableOf s.params r = some tbl)
include hwf ht

omit hacc in
theorem writes_length_lt : (writes tbl).length < 2 ^ 16 := by
  have := writeCount_le ((recordFacts hwf).tableOf ht)
  rw [writes_length]
  omega

/-- Every write answers `Ok` (R89, R97). -/
theorem starts_ok (ok : ∀ m, m < (writes tbl).length → s.saysOk m = true) :
    playFrom tbl.entries (s.starts r) =
      s.played r (writes tbl).length (writes tbl).length (playEvents s.params r (writes tbl) 0) (.ok 0) .idle := by
  have hlt := writes_length_lt hwf ht
  rw [writes_eq] at ok hlt ⊢
  rw [playFrom_at_ok tbl.entries (s.starts r) 0 (starts_at hacc r) rfl (by simpa [State.starts] using hlt)
    (fun j hj => by rw [Nat.zero_add]; exact ok j hj)]
  simp [State.starts, State.played]

/-- Write `j` is the first to answer `Err` (R95). -/
theorem starts_err {j : Nat} {a : CbAddr} {v : Byte} (hj : (writes tbl)[j]? = some (a, v))
    (ok : ∀ m, m < j → s.saysOk m = true) (err : s.saysErr j = true) :
    playFrom tbl.entries (s.starts r) =
      s.played r j (j + 1) (playEvents s.params r ((writes tbl).take j) 0 ++ [.err (.cbWr a v)]) .err .idle := by
  have hlt := writes_length_lt hwf ht
  obtain ⟨hjlt, -⟩ := List.getElem?_eq_some_iff.mp hj
  rw [writes_eq] at hj hlt hjlt ⊢
  rw [playFrom_at_err tbl.entries (s.starts r) 0 j a v (starts_at hacc r) rfl (by simp [State.starts]; omega) hj
    (fun m hm => by rw [Nat.zero_add]; exact ok m hm) (by rw [Nat.zero_add]; exact err)]
  simp [State.starts, State.played]

/-- Write `j` is the first without an outcome (R89). -/
theorem starts_nothing {j : Nat} (hj : j < (writes tbl).length) (ok : ∀ m, m < j → s.saysOk m = true)
    (no : s.saysNothing j = true) :
    playFrom tbl.entries (s.starts r) =
      s.played r j (j + 1) (playEvents s.params r ((writes tbl).take j) 0) .never .run := by
  have hlt := writes_length_lt hwf ht
  rw [writes_eq] at hj hlt ⊢
  rw [playFrom_at_nothing tbl.entries (s.starts r) 0 j (starts_at hacc r) rfl (by simp [State.starts]; omega) hj
    (fun m hm => by rw [Nat.zero_add]; exact ok m hm) (by rw [Nat.zero_add]; exact no)]
  simp [State.starts, State.played]

end

/-! ## CONFIGURE (R96, R97) -/

section
variable {s : State} (hacc : s.accepting = true) (m : Byte)
include hacc

/-- CONFIGURE whose playback returns `Ok` (R96). -/
theorem playReturned_configured (j i : Nat) (es : List Event) :
    playReturned (s.played (.mode m) j i es (.ok 0) .idle) =
      { s.played (.mode m) j i es (.ok 0) .idle with
        cfgValid := true, mode := m, status := okCode, resultLen := 0, resultData := byteData m, busy := false } := by
  have hat := played_at hacc (.mode m) j i es (.ok 0) .idle
  simp only [playReturned, State.played, configureEnd]
  rw [onReply_ok _ _ _ _ rfl, At.finish (base := s) (k := i) (by exact ⟨rfl, rfl, hat.fault, hat.quiet⟩)]
  rfl

/-- CONFIGURE whose playback returns `Err` (R96). -/
theorem playReturned_misconfigured (j i : Nat) (es : List Event) :
    playReturned (s.played (.mode m) j i es .err .idle) =
      { s.played (.mode m) j i es .err .idle with
        cfgValid := false, mode := 0xFF, status := configError, resultLen := 0, resultData := 0, busy := false } := by
  have hat := played_at hacc (.mode m) j i es .err .idle
  simp only [playReturned, State.played, configureEnd]
  rw [onReply_err _ _ _ rfl, configureError, At.raise (base := s) (k := i) (by exact ⟨rfl, rfl, hat.fault, hat.quiet⟩)]
  rfl

end

/-- Settles O34. -/
theorem configureResult : Obligations.ConfigureResult := by
  intro s m tbl hacc hwf hbus p m' k ht hok
  have hidle := idle_of_accepting hacc
  have hk : (writes tbl).length = k := writes_length tbl
  have hplay := starts_ok hacc hwf ht fun j hj => allOk_of_lt hok (by omega)
  rw [hk] at hplay
  obtain ⟨n, hn⟩ := starts_endsIn hacc hwf hbus ht (by rw [hplay, playReturned_configured hacc]) rfl
  refine ⟨exec_configure hacc m, n, _, hn, by rw [hidle]; rfl, ?_⟩
  exact (visible_append ..).trans (by rw [visible_playEvents]; rfl)

/-- Settles O35. -/
theorem configureFailure : Obligations.ConfigureFailure := by
  intro s m tbl j a v hacc hwf hbus p m' ht hj hok herr
  have hidle := idle_of_accepting hacc
  have hplay := starts_err hacc hwf ht hj (fun i hi => allOk_of_lt hok hi) herr
  obtain ⟨n, hn⟩ := starts_endsIn hacc hwf hbus ht (by rw [hplay, playReturned_misconfigured hacc]) rfl
  refine ⟨exec_configure hacc m, n, _, hn, by rw [hidle]; rfl, ?_⟩
  refine (visible_append ..).trans ?_
  rw [visible_append, visible_playEvents, List.append_assoc]
  rfl

/-! ## PROBE (R116) -/

section
variable {base s : State} {k : Nat} (h : At base k s)
include h

/-- The prelude failed. -/
theorem At.probeIdentity_failed (hr : s.reply = .err) : probeIdentity s = { s with
    probeOk := false, status := busError, resultLen := 0, resultData := 0, busy := false } := by
  rw [probeIdentity, onReply_err _ _ _ hr, probeBusError,
    At.raise (base := base) (k := k) (by exact ⟨h.answers, h.draws, h.fault, h.quiet⟩)]
  rfl

/-- Both identity reads answer `Ok`. -/
theorem At.probeIdentity_ok {v : Byte} (hr : s.reply = .ok v) (ok : base.saysOk k = true)
    (ok' : base.saysOk (k + 1) = true) : probeIdentity s = { s with
      log := s.log ++ [.cbRd s.params.idHAddr (base.answerByte k 0)] ++ [.cbRd s.params.idLAddr (base.answerByte (k + 1) 0)],
      answers := base.answers.drop (k + 2), draws := base.draws + (k + 2), reply := .ok (base.answerByte (k + 1) 0),
      probeOk := probePass (base.answerByte k 0) (base.answerByte (k + 1) 0),
      status := if probePass (base.answerByte k 0) (base.answerByte (k + 1) 0) then okCode else probeFail, resultLen := 0,
      resultData := idData (base.answerByte k 0) (base.answerByte (k + 1) 0), busy := false } := by
  rw [probeIdentity, onReply_ok _ _ _ _ hr, cbRead_at_ok h _ ok, onReply_ok _ _ _ _ rfl,
    cbRead_at_ok (base := base) (k := k + 1) (by exact ⟨rfl, rfl, h.fault, h.quiet⟩) _ ok', onReply_ok _ _ _ _ rfl,
    probeCompare]
  split
  · rename_i hpass
    rw [At.finish (base := base) (k := k + 2) (by exact ⟨rfl, rfl, h.fault, h.quiet⟩), hpass]
    rfl
  · rename_i hpass
    rw [At.raise (base := base) (k := k + 2) (by exact ⟨rfl, rfl, h.fault, h.quiet⟩), Bool.eq_false_of_not_eq_true hpass]
    rfl

/-- The high byte's read answers `Err`. -/
theorem At.probeIdentity_high_err {v : Byte} (hr : s.reply = .ok v) (err : base.saysErr k = true) :
    probeIdentity s = { s with
      log := s.log ++ [.err (.cbRd s.params.idHAddr)], answers := base.answers.drop (k + 1), draws := base.draws + (k + 1),
      reply := .err, probeOk := false, status := busError, resultLen := 0, resultData := 0, busy := false } := by
  rw [probeIdentity, onReply_ok _ _ _ _ hr, cbRead_at_err h _ err, onReply_err _ _ _ rfl, probeBusError,
    At.raise (base := base) (k := k + 1) (by exact ⟨rfl, rfl, h.fault, h.quiet⟩)]
  rfl

/-- The low byte's read answers `Err`. -/
theorem At.probeIdentity_low_err {v : Byte} (hr : s.reply = .ok v) (ok : base.saysOk k = true)
    (err : base.saysErr (k + 1) = true) : probeIdentity s = { s with
      log := s.log ++ [.cbRd s.params.idHAddr (base.answerByte k 0)] ++ [.err (.cbRd s.params.idLAddr)],
      answers := base.answers.drop (k + 2), draws := base.draws + (k + 2), reply := .err, probeOk := false,
      status := busError, resultLen := 0, resultData := 0, busy := false } := by
  rw [probeIdentity, onReply_ok _ _ _ _ hr, cbRead_at_ok h _ ok, onReply_ok _ _ _ _ rfl,
    cbRead_at_err (base := base) (k := k + 1) (by exact ⟨rfl, rfl, h.fault, h.quiet⟩) _ err, onReply_err _ _ _ rfl,
    probeBusError, At.raise (base := base) (k := k + 2) (by exact ⟨rfl, rfl, h.fault, h.quiet⟩)]
  rfl

/-- The high byte's read has no outcome. -/
theorem At.probeIdentity_high_never {v : Byte} (hr : s.reply = .ok v) (no : base.saysNothing k = true) :
    probeIdentity s = { s with
      answers := base.answers.drop (k + 1), draws := base.draws + (k + 1), reply := .never } := by
  rw [probeIdentity, onReply_ok _ _ _ _ hr, cbRead_at_nothing h _ no, onReply_never _ _ _ rfl]

/-- The low byte's read has no outcome. -/
theorem At.probeIdentity_low_never {v : Byte} (hr : s.reply = .ok v) (ok : base.saysOk k = true)
    (no : base.saysNothing (k + 1) = true) : probeIdentity s = { s with
      log := s.log ++ [.cbRd s.params.idHAddr (base.answerByte k 0)], answers := base.answers.drop (k + 2),
      draws := base.draws + (k + 2), reply := .never } := by
  rw [probeIdentity, onReply_ok _ _ _ _ hr, cbRead_at_ok h _ ok, onReply_ok _ _ _ _ rfl,
    cbRead_at_nothing (base := base) (k := k + 1) (by exact ⟨rfl, rfl, h.fault, h.quiet⟩) _ no, onReply_never _ _ _ rfl]

end

/-- Settles O28. -/
theorem probeResult : Obligations.ProbeResult := by
  intro s hacc hwf hbus p k hok h l
  have hidle := idle_of_accepting hacc
  have hk : (writes s.params.probePrelude).length = k := writes_length _
  have hplay := starts_ok hacc hwf (r := .prelude) rfl fun j hj => allOk_of_lt hok (by omega)
  rw [hk] at hplay
  have hreturn := (played_at hacc .prelude k k (playEvents s.params .prelude (writes s.params.probePrelude) 0) (.ok 0)
    .idle).probeIdentity_ok rfl (allOk_of_lt hok (by omega)) (allOk_of_lt hok (by omega))
  obtain ⟨n, hn⟩ := starts_endsIn hacc hwf hbus (r := .prelude) rfl ((congrArg playReturned hplay).trans hreturn) rfl
  refine ⟨exec_probe hacc, n, _, hn, by rw [hidle]; rfl, ?_⟩
  simp [State.events, State.played, visible_playEvents]
  rfl

/-- Settles O29. -/
theorem probeFailure : Obligations.ProbeFailure := by
  intro s j x hacc hwf hbus p ws k hx hok herr
  have hidle := idle_of_accepting hacc
  have hoks := fun i (hi : i < j) => allOk_of_lt hok hi
  refine ⟨exec_probe hacc, ?_⟩
  rcases Nat.lt_or_ge j k with hj | hj
  · rw [List.getElem?_append_left (by simpa using hj), List.getElem?_map, Option.map_eq_some_iff] at hx
    obtain ⟨⟨a, v⟩, hwrite, rfl⟩ := hx
    have hplay := starts_err hacc hwf (r := .prelude) rfl hwrite hoks herr
    obtain ⟨n, hn⟩ := starts_endsIn hacc hwf hbus (r := .prelude) rfl
      ((congrArg playReturned hplay).trans ((played_at hacc ..).probeIdentity_failed rfl)) rfl
    refine ⟨n, _, hn, by rw [hidle, Nat.min_eq_left hj.le]; rfl, ?_⟩
    rw [if_neg (by omega)]
    simp [State.events, State.played, visible_playEvents]
    rfl
  · have hplay := starts_ok hacc hwf (r := .prelude) rfl fun i hi => hoks i (lt_of_lt_of_le hi hj)
    have hat := played_at hacc .prelude k k (playEvents s.params .prelude ws 0) (.ok 0) .idle
    rw [List.getElem?_append_right (by simpa using hj), List.length_map] at hx
    obtain ⟨d, rfl⟩ := Nat.exists_eq_add_of_le hj
    rw [show k + d - ws.length = d by omega] at hx
    match d with
    | 0 =>
      obtain rfl := Option.some.inj hx
      obtain ⟨n, hn⟩ := starts_endsIn hacc hwf hbus (r := .prelude) rfl
        ((congrArg playReturned hplay).trans (hat.probeIdentity_high_err rfl herr)) rfl
      refine ⟨n, _, hn, by rw [hidle, Nat.min_eq_right hj]; rfl, ?_⟩
      rw [if_neg (by omega), List.take_of_length_le (show ws.length ≤ k + 0 by omega)]
      simp [State.events, State.played, visible_playEvents]
      exact ⟨rfl, rfl⟩
    | 1 =>
      obtain rfl := Option.some.inj hx
      obtain ⟨n, hn⟩ := starts_endsIn hacc hwf hbus (r := .prelude) rfl
        ((congrArg playReturned hplay).trans (hat.probeIdentity_low_err rfl (hoks k (by omega)) herr)) rfl
      refine ⟨n, _, hn, by rw [hidle, Nat.min_eq_right hj]; rfl, ?_⟩
      rw [if_pos rfl, List.take_of_length_le (show ws.length ≤ k + 1 by omega)]
      simp [State.events, State.played, visible_playEvents]
      rfl

/-! ## Two CONFIGUREs (R97) -/

/-- A playback whose command ends is over at the command's end. -/
theorem Plays.le_of_endsIn {u v t : State} {j k : Nat} (h : Plays k u v) (hend : endsIn u j t) : k ≤ j := by
  obtain ⟨hrun, hidle, -⟩ := hend
  by_contra hlt
  obtain ⟨x, -, hx, -, hb, -⟩ := h.2 j (by omega)
  rw [hrun] at hx
  cases hx
  rw [hidle] at hb
  cases hb

/-- A command that ends with its playback ends in one state. -/
theorem Plays.eq_of_endsIn {u v t : State} {j k : Nat} (h : Plays k u v) (hv : v.busy = false) (hend : endsIn u j t) :
    t = v := by
  have hle := h.le_of_endsIn hend
  obtain ⟨hrun, -, hbusy⟩ := hend
  have hjk : j = k := by
    by_contra hne
    obtain ⟨x, hx, hb⟩ := hbusy k (by omega)
    rw [h.1] at hx
    cases hx
    rw [hv] at hb
    cases hb
  rw [hjk, h.1] at hrun
  cases hrun
  rfl

/-- A command that is stuck with its playback does not end. -/
theorem Plays.not_endsIn {u v t : State} {j k : Nat} (h : Plays k u v) (hv : v.busy = true)
    (hstuck : ∀ n, Sys2Proof.core.run n v = .next v) : ¬ endsIn u j t := by
  intro hend
  obtain ⟨n, rfl⟩ := Nat.exists_eq_add_of_le (h.le_of_endsIn hend)
  obtain ⟨hrun, hidle, -⟩ := hend
  rw [run_add n h.1, hstuck n] at hrun
  cases hrun
  rw [hv] at hidle
  cases hidle

/-- Of the answers to the coming transactions either all are `Ok`, or one is the first that is not. -/
theorem first_not_ok (s : State) (n : Nat) : (∀ m, m < n → s.saysOk m = true) ∨
    ∃ j, j < n ∧ (∀ m, m < j → s.saysOk m = true) ∧ (s.saysErr j = true ∨ s.saysNothing j = true) := by
  by_cases hall : ∀ m, m < n → s.saysOk m = true
  · exact .inl hall
  · have hex : ∃ j, j < n ∧ s.saysOk j = false := by
      by_contra hno
      exact hall fun m hm => by
        by_contra hne
        exact hno ⟨m, hm, Bool.eq_false_of_not_eq_true hne⟩
    obtain ⟨hlt, hbad⟩ := Nat.find_spec hex
    refine .inr ⟨Nat.find hex, hlt, fun m hm => ?_, ?_⟩
    · by_contra hne
      exact Nat.find_min hex hm ⟨by omega, Bool.eq_false_of_not_eq_true hne⟩
    · rcases says_cases s (Nat.find hex) with ⟨ho, -, -⟩ | ⟨-, he, -⟩ | ⟨-, -, hn⟩
      · rw [hbad] at ho
        cases ho
      · exact .inl he
      · exact .inr hn

/-- A block stuck in a playback, or in a read that follows it. -/
theorem played_hangs {s : State} (hacc : s.accepting = true) (hwf : recordWf s.params = true) {r : TableRef} {pc i j : Nat}
    {es log : List Event} {answers : List Answer} {reply : Reply} {q : SeqState} :
    hangs s { s.played r pc i es reply q with
      log := log, answers := answers, draws := s.draws + (j + 1), reply := .never } j :=
  ⟨rfl, rfl, rfl, rfl, rfl, rfl, rfl, rfl, rfl, rfl,
    run_stuck hwf (played_at hacc r pc i es reply q).clear (stuck_of_never rfl rfl)⟩

/-- A CONFIGURE that ends OK: each write of its table answered `Ok`. -/
theorem configure_endsIn_ok {s t : State} {m : Byte} {tbl : RegisterTable} {j : Nat} (hacc : s.accepting = true)
    (hwf : recordWf s.params = true) (hbus : s.bus = none) (ht : tableOf s.params (.mode m) = some tbl)
    (hend : endsIn (s.starts (.mode m)) j t) (hok : t.status = okCode) :
    t.params = s.params ∧ t.accepting = true ∧ t.bus = none ∧
      t.events = s.events ++ playEvents s.params (.mode m) (writes tbl) 0 := by
  have hcomes := starts_comes hacc hwf hbus ht
  rcases first_not_ok s (writes tbl).length with hall | ⟨i, hi, hoks, herr | hno⟩
  · have hreturn := (congrArg playReturned (starts_ok hacc hwf ht hall)).trans (playReturned_configured hacc ..)
    rw [Playhead.Comes, hreturn] at hcomes
    obtain rfl := hcomes.eq_of_endsIn rfl hend
    obtain ⟨hf, -, hq⟩ := (accepting_iff s).mp hacc
    exact ⟨rfl, (accepting_iff _).mpr ⟨hf, rfl, hq⟩, hbus, (visible_append ..).trans (by rw [visible_playEvents]; rfl)⟩
  · have hreturn := (congrArg playReturned (starts_err hacc hwf ht (List.getElem?_eq_getElem hi) hoks herr)).trans
      (playReturned_misconfigured hacc ..)
    rw [Playhead.Comes, hreturn] at hcomes
    obtain rfl := hcomes.eq_of_endsIn rfl hend
    cases hok
  · have hreturn := (congrArg playReturned (starts_nothing hacc hwf ht hi hoks hno)).trans (playReturned_never rfl)
    rw [Playhead.Comes, hreturn] at hcomes
    exact absurd hend (hcomes.not_endsIn rfl (run_stuck hwf (played_at hacc ..).clear (stuck_of_never rfl rfl)))

/-- Settles O37. -/
theorem configureTwiceSameEvents : Obligations.ConfigureTwiceSameEvents := by
  intro s s' t t' u m j k hacc hwf hbus hs' ht htok ht' hu huok
  obtain ⟨tbl, htbl⟩ := lookup_of_mem ((recordFacts hwf).resolve_mem m)
  rw [exec_configure hacc] at hs'
  injection hs' with hs'
  subst hs'
  obtain ⟨hp, hacct, hbust, hevents⟩ := configure_endsIn_ok hacc hwf hbus htbl ht htok
  rw [exec_configure hacct, hp] at ht'
  injection ht' with ht'
  subst ht'
  obtain ⟨-, -, -, hevents'⟩ := configure_endsIn_ok hacct (by rw [hp]; exact hwf) hbust (by rw [hp]; exact htbl) hu huok
  exact ⟨_, hevents, by rw [hevents', hp]⟩

/-! ## Commands without an outcome (R10, R112) -/

/-- A write of a playback without an outcome. -/
theorem playback_hangs {s : State} (hacc : s.accepting = true) (hwf : recordWf s.params = true) (hbus : s.bus = none)
    {r : TableRef} {tbl : RegisterTable} (ht : tableOf s.params r = some tbl) {j : Nat} (hj : j < (writes tbl).length)
    (hok : s.allOk j = true) (no : s.saysNothing j = true) :
    ∃ n t, Sys2Proof.core.run n (s.starts r) = .next t ∧ hangs s t j ∧
      t.events = s.events ++ playEvents s.params r ((writes tbl).take j) 0 := by
  have hplay := starts_nothing hacc hwf ht hj (fun i hi => allOk_of_lt hok hi) no
  have hreturn := (congrArg playReturned hplay).trans (playReturned_never rfl)
  refine ⟨_, _, (starts_comes hacc hwf hbus ht).1, ?_⟩
  rw [hreturn]
  exact ⟨played_hangs hacc hwf (i := j + 1) (es := playEvents s.params r ((writes tbl).take j) 0) (reply := .never),
    (visible_append ..).trans (by rw [visible_playEvents]; rfl)⟩

/-- An identity read of a PROBE without an outcome. -/
theorem probe_read_hangs {s : State} (hacc : s.accepting = true) (hwf : recordWf s.params = true) (hbus : s.bus = none)
    {d : Nat} (hd : d < 2) (hok : s.allOk ((writes s.params.probePrelude).length + d) = true)
    (no : s.saysNothing ((writes s.params.probePrelude).length + d) = true) :
    ∃ n t, Sys2Proof.core.run n (s.starts .prelude) = .next t ∧ hangs s t ((writes s.params.probePrelude).length + d) ∧
      t.events = s.events ++ playEvents s.params .prelude (writes s.params.probePrelude) 0 ++
        (if d = 1 then [.cbRd s.params.idHAddr (s.answerByte (writes s.params.probePrelude).length 0)] else []) := by
  have hoks := fun i hi => allOk_of_lt hok (k := i) hi
  have hplay := starts_ok hacc hwf (r := .prelude) rfl fun i hi => hoks i (by omega)
  have hat := played_at hacc .prelude (writes s.params.probePrelude).length (writes s.params.probePrelude).length
    (playEvents s.params .prelude (writes s.params.probePrelude) 0) (.ok 0) .idle
  refine ⟨_, _, (starts_comes hacc hwf hbus (r := .prelude) rfl).1, ?_⟩
  match d, hd with
  | 0, _ =>
    rw [(congrArg playReturned hplay).trans (hat.probeIdentity_high_never rfl no)]
    refine ⟨played_hangs hacc hwf, ?_⟩
    rw [if_neg Nat.zero_ne_one, List.append_nil]
    exact (visible_append ..).trans (by rw [visible_playEvents]; rfl)
  | 1, _ =>
    rw [(congrArg playReturned hplay).trans (hat.probeIdentity_low_never rfl (hoks _ (by omega)) no)]
    refine ⟨played_hangs hacc hwf, ?_⟩
    rw [if_pos rfl]
    simp [State.events, State.played, visible_playEvents]

/-- Settles O46. -/
theorem stuckCommandNeverEnds : Obligations.StuckCommandNeverEnds := by
  refine ⟨fun s k hwf hclear hb hr => run_stuck hwf hclear (stuck_of_never hb hr) k, ?_, ?_, ?_, ?_⟩
  · intro s j hacc hwf hg i len hj hok no hdone hfits
    exact capture_hangs hacc hwf hg hj hok no hdone hfits
  · intro s j hp len hj hok no hdone hfits
    exact polling_hangs hp hj hok no hdone hfits
  · intro s j hacc hwf hbus p ws k hj hok no
    rcases Nat.lt_or_ge j k with hlt | hge
    · obtain ⟨n, t, hrun, hh, hevents⟩ := playback_hangs hacc hwf hbus (r := .prelude) rfl hlt hok no
      refine ⟨n, t, hrun, hh, ?_⟩
      rw [hevents, if_neg (by omega), List.append_nil]
    · obtain ⟨d, rfl⟩ := Nat.exists_eq_add_of_le hge
      obtain ⟨n, t, hrun, hh, hevents⟩ := probe_read_hangs hacc hwf hbus (d := d) (by omega) hok no
      refine ⟨n, t, hrun, hh, ?_⟩
      rw [hevents, List.take_of_length_le (show ws.length ≤ k + d by omega)]
      simp only [Nat.add_left_cancel_iff]
      rfl
  · intro s m tbl j hacc hwf hbus ht hj hok no
    exact playback_hangs hacc hwf hbus ht hj hok no

end Sys2Proof.Machine
end

section
/-! SUPPORT. The statements about single steps: the block at rest, the entries of a table, and the command that comes too
early (45_host_interface.md, 41_sequencer.md, 60_exceptions.md). -/

namespace Sys2Proof.Machine

/-! ## The entries (R88 to R95) -/

/-- Settles O30: WR8 and WR16 are one write entry. -/
theorem writeEntryResult : Obligations.WriteEntryResult := by
  intro s i a v hi hclear
  have hexec : exec i s = .next (seqWrite a v s) := by
    rcases hi with ⟨b, rfl, rfl⟩ | rfl <;> rfl
  have hat := At.self hclear
  refine ⟨_, hexec, ?_⟩
  rcases says_cases s 0 with ⟨ho, he, hn⟩ | ⟨ho, he, hn⟩ | ⟨ho, he, hn⟩
  · rw [seqWrite_at_ok hat a v ho, ho, he, hn]
    cases hmark : settleAfter s.params s.seqTbl s.seqPc.toNat
    · exact ⟨by simp, fun _ _ => ⟨rfl, rfl, rfl, by simp [State.events]⟩, nofun, nofun, nofun⟩
    · exact ⟨by simp, nofun, fun _ _ => ⟨rfl, rfl, rfl, by simp [State.events]⟩, nofun, nofun⟩
  · rw [seqWrite_at_err hat a v he, ho, he, hn]
    exact ⟨by simp, nofun, nofun, fun _ => ⟨rfl, rfl, rfl, by simp [State.events]⟩, nofun⟩
  · rw [seqWrite_at_nothing hat a v hn, ho, he, hn]
    exact ⟨by simp, nofun, nofun, nofun, fun _ => ⟨rfl, rfl, rfl, rfl⟩⟩

/-- Settles O31. -/
theorem terminatorEndsPlayback : Obligations.TerminatorEndsPlayback := by
  intro s hclear
  rw [exec, execEnd8, playEnd_clear s hclear]

/-- Settles O32. -/
theorem settleWaitEnds : Obligations.SettleWaitEnds := by
  intro s hwf hclear hs hbus hseq
  rw [step_settle hwf ((clear_iff s).mp hclear).1 hs hbus hseq, settleEnd_clear s hclear hseq]

/-- Settles O33: at its length a TBL16 table has its end, as if a terminator stood there. -/
theorem lengthEndsPlayback : Obligations.LengthEndsPlayback := by
  intro s ws hwf hclear hb hr hbus hseq ht hlen
  have hend : tableEntry (.tbl16 ws) s.seqPc.toNat = some none := by
    rw [tableEntry, if_pos (by simp [atTableEnd, hlen])]
  rw [step_entry hwf ((clear_iff s).mp hclear).1 (stuck_of_seq (by rw [hseq]; nofun) hr) hbus hseq,
    runFetched_fetchEntry ht, hend]
  simp only [playEntry]
  rw [playEnd_clear s hclear, afterEntry_of_idle (by exact hb) rfl]

/-- A command's course counts only on states with the record of the block that accepts it. -/
theorem accept_congr {c c' : State → Host.Outcome State Fault Refusal} {s : State}
    (h : ∀ b : State, b.params = s.params → c b = c' b) : accept c s = accept c' s := by
  have hp : s.begin.hostTurn.params = s.params := by rw [(hostTurn_frame s.begin).1]; rfl
  simp only [accept, h _ hp]

/-- Settles O38: CONFIGURE depends on its operand through the mode it resolves to. -/
theorem unknownModePlaysDefault : Obligations.UnknownModePlaysDefault := by
  intro s m hwf
  have hdefault : resolve s.params s.params.defaultMode = s.params.defaultMode := if_pos (recordFacts hwf).defaultMode
  refine ⟨fun hm => if_pos hm, lookup_of_mem ((recordFacts hwf).resolve_mem m), fun hm => ⟨if_neg hm, ?_⟩⟩
  have hresolve : resolve s.params m = s.params.defaultMode := if_neg hm
  simp only [exec, execConfigure]
  exact accept_congr fun b hb => by rw [hb, hresolve, hdefault]

/-! ## The block at rest (R15, R126, R133, R134, R149) -/

/-- Settles O10. -/
theorem faultedBlockStops : Obligations.FaultedBlockStops := by
  intro s hwf hf
  refine ⟨step_faulted hwf hf, fun i hi => ?_⟩
  obtain ⟨c, hc⟩ := hostCommand_accept i hi
  rw [hc, accept_faulted c s hf]

section
variable {s : State} (hwf : recordWf s.params = true) (hf : s.fault = []) (hb : s.busy = false) (hbus : s.bus = none)
  (hseq : s.seqState = .idle)
include hwf hf hb hbus hseq

theorem step_idle (hh : s.host = []) : step s = .next s := by
  rw [step_host hwf hf (stuck_of_idle hb) hbus hseq, fetchHost, hh]
  rfl

theorem step_command {bytes : List Byte} {early : Option Nat} {rest : List HostMove}
    (hh : s.host = .command bytes early :: rest) :
    step s = exec (decodeHost s.params.addrW bytes) { s with host := rest } := by
  rw [step_host hwf hf (stuck_of_idle hb) hbus hseq, fetchHost, hh]
  simp only [runFetched, resume]
  split <;> simp_all

theorem step_store {b : HostBuffer} {i : Nat} {v : Byte} {rest : List HostMove} (hh : s.host = .store b i v :: rest) :
    step s = hostStore b i v { s with host := rest } := by
  rw [step_host hwf hf (stuck_of_idle hb) hbus hseq, fetchHost, hh]
  simp only
  split <;> simp_all [runFetched]

end

/-- Settles O12: each source of a step. -/
theorem stepRunsDecodedInstruction : Obligations.StepRunsDecodedInstruction := by
  intro s i hwf hf
  refine ⟨fun bytes early rest hb hbus hseq hh hdecode => ?_, fun tbl f hs hbus hseq ht hend hform hdecode t hexec => ?_,
    fun f hs hbus hdecode t hexec => ?_⟩
  · injection hdecode with hi
    rw [step_command hwf hf hb hbus hseq hh, hi]
  · rw [step_entry hwf hf hs hbus hseq, fetchEntry, ht]
    simp only [hend, Bool.false_eq_true, if_false, hform, hdecode, runFetched, hexec, resume]
  · rw [step_frame hwf hf hs hbus, fetchFrame, hdecode]
    simp only [runFetched, hexec, resume]

/-- A store in its buffer: it reads back, and every other byte reads as before (R133). -/
theorem hostStore_read {b : HostBuffer} {i : Nat} {v : Byte} {s t : State} (h : hostStore b i v s = .next t) :
    ((s.contents b).wf = true → (t.contents b).read i = v) ∧
    ∀ b' k, (b' = b → k ≠ i) → (t.contents b').read k = (s.contents b').read k := by
  obtain ⟨-, ⟨rfl, rfl⟩ | ⟨rfl, rfl⟩⟩ := hostStore_frame h
  · refine ⟨Memory.read_write_same _ _ _, fun b' k hk => ?_⟩
    cases b' with
    | buf => exact Memory.read_write_other _ _ _ _ (hk rfl)
    | obuf => rfl
  · refine ⟨Memory.read_write_same _ _ _, fun b' k hk => ?_⟩
    cases b' with
    | buf => rfl
    | obuf => exact Memory.read_write_other _ _ _ _ (hk rfl)

/-- Settles O14. -/
theorem hostStoreStep : Obligations.HostStoreStep := by
  intro s b i v rest hwf hf hb hbus hseq hh hmem
  rw [step_store hwf hf hb hbus hseq hh]
  refine ⟨fun hle => if_pos hle, fun hlt => ?_⟩
  obtain ⟨t, ht⟩ := hostStore_next (v := v) (s := { s with host := rest }) hlt
  obtain ⟨hsame, hother⟩ := hostStore_read ht
  refine ⟨t, ht, hsame hmem, fun k hk => hother b k fun _ => hk, fun hbuf => ?_, fun hobuf => ?_⟩
  · obtain ⟨-, ⟨-, rfl⟩ | ⟨rfl, -⟩⟩ := hostStore_frame ht
    · rfl
    · cases hbuf
  · obtain ⟨-, ⟨rfl, -⟩ | ⟨-, rfl⟩⟩ := hostStore_frame ht
    · cases hobuf
    · rfl

/-- Settles O13: with no command left the host's next move is a store, or there is none. -/
theorem idleBlockKeepsEverything : Obligations.IdleBlockKeepsEverything := by
  intro s hwf hf hb hbus hseq
  refine ⟨step_idle hwf hf hb hbus hseq, fun hended hrange => ?_⟩
  cases hh : s.host with
  | nil => exact ⟨s, step_idle hwf hf hb hbus hseq hh, hended, by rw [List.tail_nil, ← hh], fun _ _ _ _ => rfl⟩
  | cons move rest =>
    cases move with
    | command bytes early => simp [State.ended, hh, HostMove.isCommand] at hended
    | store b i v =>
      rw [hh, List.all_cons, Bool.and_eq_true] at hrange
      obtain ⟨t, ht⟩ := hostStore_next (v := v) (s := { s with host := rest }) (of_decide_eq_true hrange.1)
      refine ⟨t, (step_store hwf hf hb hbus hseq hh).trans ht, ?_, ?_, fun b' k hne _ => ?_⟩
      · have hrest : rest.any HostMove.isCommand = false := by simpa [State.ended, hb, hf, hh, HostMove.isCommand] using hended
        obtain ⟨-, ⟨-, rfl⟩ | ⟨-, rfl⟩⟩ := hostStore_frame ht <;> simp [State.ended, hb, hf, hrest]
      · obtain ⟨-, ⟨-, rfl⟩ | ⟨-, rfl⟩⟩ := hostStore_frame ht <;> rfl
      · exact (hostStore_read ht).2 b' k fun hb' hk => hne v rest (by rw [hb', hk])

/-! ## The command that comes too early (R112, R127) -/

section
variable {s : State} (hf : s.fault = []) (hb : s.busy = true) {bytes : List Byte} {rest : List HostMove}
include hf hb

/-- The host's count has run out. -/
theorem hostTurn_early (hh : s.host = .command bytes (some 0) :: rest) :
    s.hostTurn = { s with fault := [.busyViolation], host := rest, reply := .never } := by
  simp [State.hostTurn, State.busyViolation, hf, hb, hh]

/-- An action before which the host breaks in does not take place. -/
theorem inTurn_early (hh : s.host = .command bytes (some 0) :: rest) (action : State → State) :
    inTurn action s = { s with fault := [.busyViolation], host := rest, reply := .never } := by
  have hturn := hostTurn_early hf hb hh
  rw [inTurn_halted action s (by rw [hturn]; nofun), hturn]
  rfl

/-- An action before which the host counts down. -/
theorem inTurn_counted {k : Nat} (hh : s.host = .command bytes (some (k + 1)) :: rest) (action : State → State) :
    inTurn action s = action { s with host := .command bytes (some k) :: rest } := by
  have hturn : s.hostTurn = { s with host := .command bytes (some k) :: rest } := by
    simp only [State.hostTurn, hb, hh]
  rw [inTurn, hturn]
  exact if_pos hf

/-- A control-bus read before which the host counts down. -/
theorem cbRead_counted {k : Nat} (hh : s.host = .command bytes (some (k + 1)) :: rest) (a : CbAddr)
    (hok : s.saysOk 0 = true) : cbRead a s = { s with
      host := .command bytes (some k) :: rest, log := s.log ++ [.cbRd a (s.answerByte 0 0)], answers := s.answers.tail,
      draws := s.draws + 1, reply := .ok (s.answerByte 0 0) } := by
  obtain ⟨answer, hanswer⟩ := (saysOk_iff s 0).mp hok
  have hanswer' : ({ s with host := .command bytes (some k) :: rest } : State).answer 0 = .ok answer := hanswer
  rw [cbRead, transaction, inTurn_counted hf hb hh]
  simp only [hanswer']
  rfl

/-- No entry of a table is played. -/
theorem playEntry_early (hh : s.host = .command bytes (some 0) :: rest) (e : Option (CbAddr × Byte)) :
    playEntry e s = { s with fault := [.busyViolation], host := rest, reply := .never } := by
  cases e with
  | none =>
    rw [playEntry, playEnd]
    exact inTurn_early hf hb hh _
  | some e =>
    rw [playEntry, seqWrite, cbWrite, transaction, inTurn_early hf hb hh]
    rfl

end

/-- A running command's step before which the host breaks in. -/
theorem step_early {s : State} {bytes : List Byte} {rest : List HostMove} (hwf : recordWf s.params = true) (hinv : s.Inv)
    (hf : s.fault = []) (hb : s.busy = true) (hh : s.host = .command bytes (some 0) :: rest) :
    step s = .next { s with fault := [.busyViolation], host := rest, bus := none, reply := .never } := by
  by_cases hs : stuck s = true
  · have hbus : s.bus = none := hinv.busPoll.resolve_right fun ⟨hbus, _, _, _, hr⟩ => by
      simp [stuck_of_bus hbus hr] at hs
    rw [step_stuck hwf hf hs, hostTurn_early hf hb hh, hbus]
  have hs := Bool.eq_false_of_not_eq_true hs
  rcases hinv.busPoll with hbus | ⟨hbus, -, hc, -, hr⟩
  · cases hseq : s.seqState with
    | idle =>
      have := idle_of_not_stuck hs hbus hseq
      rw [hb] at this
      cases this
    | run =>
      obtain ⟨tbl, ht, hle, -⟩ := hinv.seqRuns (by rw [hseq]; nofun)
      obtain ⟨e, he⟩ : ∃ e, tableEntry tbl s.seqPc.toNat = some e := by
        rcases tableEntry_of_le ((recordFacts hwf).tableOf ht) hle with ⟨-, e, he, -⟩ | ⟨-, he⟩
        · exact ⟨_, he⟩
        · exact ⟨_, he⟩
      rw [step_entry hwf hf hs hbus hseq, runFetched_fetchEntry ht, he]
      simp only
      rw [playEntry_early hf hb hh, afterEntry_of_ne (by simp [hseq]), hbus, hseq]
    | settle =>
      rw [step_settle hwf hf hs hbus hseq, settleEnd, if_pos hseq, inTurn_early hf hb hh, hbus, hseq]
  · rw [step_pollFrame hwf hf hbus hb hc hr, poll, dbRead, transaction,
      inTurn_early (s := { s with bus := none }) hf hb hh]
    rfl

/-- Settles O56. -/
theorem earlyCommandStopsBlock : Obligations.EarlyCommandStopsBlock := by
  refine ⟨fun s bytes rest hwf hinv hf hb hh => step_early hwf hinv hf hb hh, ?_⟩
  intro s a bytes rest hf hb hh hok
  have hbegin : s.begin.hostTurn = { s.begin with host := .command bytes (some 1) :: rest } := by
    simp [State.hostTurn, State.begin, hh]
  refine ⟨{ s with
    busy := true, fault := [.busyViolation], host := rest, log := s.log ++ [.cbRd a (s.answerByte 0 0)],
    answers := s.answers.tail, draws := s.draws + 1, reply := .never }, ?_, rfl, by simp [State.events]⟩
  rw [exec, execCread, accept, if_pos hf, hb, if_neg Bool.false_ne_true, hbegin]
  simp only
  rw [if_pos (by exact hf), cbRead_counted (k := 0) (by exact hf) rfl rfl a (by exact hok), onReply_ok _ _ _ _ rfl,
    finish, State.respond, inTurn_early (by exact hf) rfl rfl]
  rfl

end Sys2Proof.Machine
end
